-- ==== Sys2Proof/Word.lean ====
section
/-! DEFINITION. The widths of the ARM instruction set (00_scope.md R8, R11): words, halfwords, bytes and register numbers. -/
namespace Sys2Proof

/-- A 32-bit word: the width of a general-purpose register, of the PC, of an address and of an instruction (R8, R11). -/
abbrev Word := BitVec 32

/-- The unit of addressing (20_memory.md R71). -/
abbrev Byte := BitVec 8

/-- A register number, R0 to R15 (10_state.md R31). -/
abbrev Reg := BitVec 4

/-- A coprocessor number, or a coprocessor's own register specifier (49_exception_coprocessor.md R512). -/
abbrev CpField := BitVec 4

end Sys2Proof
end

