-- ==== Sys2Proof/Syntax.lean ====
section
/-! DEFINITION. The instructions: one constructor for each row of spec/opcode_table.json, in the table's order, its fields
from the most significant bit down, and the field types the decoder turns raw bits into. -/
namespace Sys2Proof

/-- The conditions of 40_condition_execution.md R161. The code 0b1111 is not a condition (R163). -/
inductive Cond where
  | eq | ne | cs | cc | mi | pl | vs | vc | hi | ls | ge | lt | gt | le | al
deriving DecidableEq, Repr

/-- The `shift` field (30_encoding.md R109). -/
inductive ShiftType where
  | lsl | lsr | asr | ror
deriving DecidableEq, Repr

/-- The P and W bits of a load or store of one register (47_load_store.md R421): offset (P = 1, W = 0), pre-indexed
(P = 1, W = 1), post-indexed (P = 0, W = 0). -/
inductive IndexMode where
  | offset | pre | post
deriving DecidableEq, Repr

/-- The P and U bits of a load or store multiple (48_load_store_multiple_semaphore.md R471). -/
inductive BlockMode where
  | da | ia | db | ib
deriving DecidableEq, Repr

/-- The instructions. Each docstring gives the row's mnemonic, its encoding as the table writes it (`z` should be zero,
`o` should be one) and its rule. -/
inductive Instr where
  -- data processing (42_data_processing.md)
  /-- `AND` cccc0000000Snnnnddddaaaaatt0mmmm, R211. -/
  | andShift (c : Cond) (s : Bool) (rn rd : Reg) (imm5 : BitVec 5) (ty : ShiftType) (rm : Reg)
  /-- `AND` cccc0000000Snnnnddddssss0tt1mmmm, R211. -/
  | andReg (c : Cond) (s : Bool) (rn rd rs : Reg) (ty : ShiftType) (rm : Reg)
  /-- `AND` cccc0010000Snnnnddddrrrriiiiiiii, R211. -/
  | andImm (c : Cond) (s : Bool) (rn rd : Reg) (rot : BitVec 4) (imm8 : BitVec 8)
  /-- `EOR` cccc0000001Snnnnddddaaaaatt0mmmm, R212. -/
  | eorShift (c : Cond) (s : Bool) (rn rd : Reg) (imm5 : BitVec 5) (ty : ShiftType) (rm : Reg)
  /-- `EOR` cccc0000001Snnnnddddssss0tt1mmmm, R212. -/
  | eorReg (c : Cond) (s : Bool) (rn rd rs : Reg) (ty : ShiftType) (rm : Reg)
  /-- `EOR` cccc0010001Snnnnddddrrrriiiiiiii, R212. -/
  | eorImm (c : Cond) (s : Bool) (rn rd : Reg) (rot : BitVec 4) (imm8 : BitVec 8)
  /-- `SUB` cccc0000010Snnnnddddaaaaatt0mmmm, R213. -/
  | subShift (c : Cond) (s : Bool) (rn rd : Reg) (imm5 : BitVec 5) (ty : ShiftType) (rm : Reg)
  /-- `SUB` cccc0000010Snnnnddddssss0tt1mmmm, R213. -/
  | subReg (c : Cond) (s : Bool) (rn rd rs : Reg) (ty : ShiftType) (rm : Reg)
  /-- `SUB` cccc0010010Snnnnddddrrrriiiiiiii, R213. -/
  | subImm (c : Cond) (s : Bool) (rn rd : Reg) (rot : BitVec 4) (imm8 : BitVec 8)
  /-- `RSB` cccc0000011Snnnnddddaaaaatt0mmmm, R214. -/
  | rsbShift (c : Cond) (s : Bool) (rn rd : Reg) (imm5 : BitVec 5) (ty : ShiftType) (rm : Reg)
  /-- `RSB` cccc0000011Snnnnddddssss0tt1mmmm, R214. -/
  | rsbReg (c : Cond) (s : Bool) (rn rd rs : Reg) (ty : ShiftType) (rm : Reg)
  /-- `RSB` cccc0010011Snnnnddddrrrriiiiiiii, R214. -/
  | rsbImm (c : Cond) (s : Bool) (rn rd : Reg) (rot : BitVec 4) (imm8 : BitVec 8)
  /-- `ADD` cccc0000100Snnnnddddaaaaatt0mmmm, R215. -/
  | addShift (c : Cond) (s : Bool) (rn rd : Reg) (imm5 : BitVec 5) (ty : ShiftType) (rm : Reg)
  /-- `ADD` cccc0000100Snnnnddddssss0tt1mmmm, R215. -/
  | addReg (c : Cond) (s : Bool) (rn rd rs : Reg) (ty : ShiftType) (rm : Reg)
  /-- `ADD` cccc0010100Snnnnddddrrrriiiiiiii, R215. -/
  | addImm (c : Cond) (s : Bool) (rn rd : Reg) (rot : BitVec 4) (imm8 : BitVec 8)
  /-- `ADC` cccc0000101Snnnnddddaaaaatt0mmmm, R216. -/
  | adcShift (c : Cond) (s : Bool) (rn rd : Reg) (imm5 : BitVec 5) (ty : ShiftType) (rm : Reg)
  /-- `ADC` cccc0000101Snnnnddddssss0tt1mmmm, R216. -/
  | adcReg (c : Cond) (s : Bool) (rn rd rs : Reg) (ty : ShiftType) (rm : Reg)
  /-- `ADC` cccc0010101Snnnnddddrrrriiiiiiii, R216. -/
  | adcImm (c : Cond) (s : Bool) (rn rd : Reg) (rot : BitVec 4) (imm8 : BitVec 8)
  /-- `SBC` cccc0000110Snnnnddddaaaaatt0mmmm, R217. -/
  | sbcShift (c : Cond) (s : Bool) (rn rd : Reg) (imm5 : BitVec 5) (ty : ShiftType) (rm : Reg)
  /-- `SBC` cccc0000110Snnnnddddssss0tt1mmmm, R217. -/
  | sbcReg (c : Cond) (s : Bool) (rn rd rs : Reg) (ty : ShiftType) (rm : Reg)
  /-- `SBC` cccc0010110Snnnnddddrrrriiiiiiii, R217. -/
  | sbcImm (c : Cond) (s : Bool) (rn rd : Reg) (rot : BitVec 4) (imm8 : BitVec 8)
  /-- `RSC` cccc0000111Snnnnddddaaaaatt0mmmm, R218. -/
  | rscShift (c : Cond) (s : Bool) (rn rd : Reg) (imm5 : BitVec 5) (ty : ShiftType) (rm : Reg)
  /-- `RSC` cccc0000111Snnnnddddssss0tt1mmmm, R218. -/
  | rscReg (c : Cond) (s : Bool) (rn rd rs : Reg) (ty : ShiftType) (rm : Reg)
  /-- `RSC` cccc0010111Snnnnddddrrrriiiiiiii, R218. -/
  | rscImm (c : Cond) (s : Bool) (rn rd : Reg) (rot : BitVec 4) (imm8 : BitVec 8)
  /-- `TST` cccc00010001nnnnzzzzaaaaatt0mmmm, R219. -/
  | tstShift (c : Cond) (rn : Reg) (imm5 : BitVec 5) (ty : ShiftType) (rm : Reg)
  /-- `TST` cccc00010001nnnnzzzzssss0tt1mmmm, R219. -/
  | tstReg (c : Cond) (rn rs : Reg) (ty : ShiftType) (rm : Reg)
  /-- `TST` cccc00110001nnnnzzzzrrrriiiiiiii, R219. -/
  | tstImm (c : Cond) (rn : Reg) (rot : BitVec 4) (imm8 : BitVec 8)
  /-- `TEQ` cccc00010011nnnnzzzzaaaaatt0mmmm, R220. -/
  | teqShift (c : Cond) (rn : Reg) (imm5 : BitVec 5) (ty : ShiftType) (rm : Reg)
  /-- `TEQ` cccc00010011nnnnzzzzssss0tt1mmmm, R220. -/
  | teqReg (c : Cond) (rn rs : Reg) (ty : ShiftType) (rm : Reg)
  /-- `TEQ` cccc00110011nnnnzzzzrrrriiiiiiii, R220. -/
  | teqImm (c : Cond) (rn : Reg) (rot : BitVec 4) (imm8 : BitVec 8)
  /-- `CMP` cccc00010101nnnnzzzzaaaaatt0mmmm, R221. -/
  | cmpShift (c : Cond) (rn : Reg) (imm5 : BitVec 5) (ty : ShiftType) (rm : Reg)
  /-- `CMP` cccc00010101nnnnzzzzssss0tt1mmmm, R221. -/
  | cmpReg (c : Cond) (rn rs : Reg) (ty : ShiftType) (rm : Reg)
  /-- `CMP` cccc00110101nnnnzzzzrrrriiiiiiii, R221. -/
  | cmpImm (c : Cond) (rn : Reg) (rot : BitVec 4) (imm8 : BitVec 8)
  /-- `CMN` cccc00010111nnnnzzzzaaaaatt0mmmm, R222. -/
  | cmnShift (c : Cond) (rn : Reg) (imm5 : BitVec 5) (ty : ShiftType) (rm : Reg)
  /-- `CMN` cccc00010111nnnnzzzzssss0tt1mmmm, R222. -/
  | cmnReg (c : Cond) (rn rs : Reg) (ty : ShiftType) (rm : Reg)
  /-- `CMN` cccc00110111nnnnzzzzrrrriiiiiiii, R222. -/
  | cmnImm (c : Cond) (rn : Reg) (rot : BitVec 4) (imm8 : BitVec 8)
  /-- `ORR` cccc0001100Snnnnddddaaaaatt0mmmm, R223. -/
  | orrShift (c : Cond) (s : Bool) (rn rd : Reg) (imm5 : BitVec 5) (ty : ShiftType) (rm : Reg)
  /-- `ORR` cccc0001100Snnnnddddssss0tt1mmmm, R223. -/
  | orrReg (c : Cond) (s : Bool) (rn rd rs : Reg) (ty : ShiftType) (rm : Reg)
  /-- `ORR` cccc0011100Snnnnddddrrrriiiiiiii, R223. -/
  | orrImm (c : Cond) (s : Bool) (rn rd : Reg) (rot : BitVec 4) (imm8 : BitVec 8)
  /-- `MOV` cccc0001101Szzzzddddaaaaatt0mmmm, R224. -/
  | movShift (c : Cond) (s : Bool) (rd : Reg) (imm5 : BitVec 5) (ty : ShiftType) (rm : Reg)
  /-- `MOV` cccc0001101Szzzzddddssss0tt1mmmm, R224. -/
  | movReg (c : Cond) (s : Bool) (rd rs : Reg) (ty : ShiftType) (rm : Reg)
  /-- `MOV` cccc0011101Szzzzddddrrrriiiiiiii, R224. -/
  | movImm (c : Cond) (s : Bool) (rd : Reg) (rot : BitVec 4) (imm8 : BitVec 8)
  /-- `BIC` cccc0001110Snnnnddddaaaaatt0mmmm, R225. -/
  | bicShift (c : Cond) (s : Bool) (rn rd : Reg) (imm5 : BitVec 5) (ty : ShiftType) (rm : Reg)
  /-- `BIC` cccc0001110Snnnnddddssss0tt1mmmm, R225. -/
  | bicReg (c : Cond) (s : Bool) (rn rd rs : Reg) (ty : ShiftType) (rm : Reg)
  /-- `BIC` cccc0011110Snnnnddddrrrriiiiiiii, R225. -/
  | bicImm (c : Cond) (s : Bool) (rn rd : Reg) (rot : BitVec 4) (imm8 : BitVec 8)
  /-- `MVN` cccc0001111Szzzzddddaaaaatt0mmmm, R226. -/
  | mvnShift (c : Cond) (s : Bool) (rd : Reg) (imm5 : BitVec 5) (ty : ShiftType) (rm : Reg)
  /-- `MVN` cccc0001111Szzzzddddssss0tt1mmmm, R226. -/
  | mvnReg (c : Cond) (s : Bool) (rd rs : Reg) (ty : ShiftType) (rm : Reg)
  /-- `MVN` cccc0011111Szzzzddddrrrriiiiiiii, R226. -/
  | mvnImm (c : Cond) (s : Bool) (rd : Reg) (rot : BitVec 4) (imm8 : BitVec 8)
  -- multiply (43_multiply.md)
  /-- `MUL` cccc0000000Sddddzzzzssss1001mmmm, R262. -/
  | mul (c : Cond) (s : Bool) (rd rs rm : Reg)
  /-- `MLA` cccc0000001Sddddnnnnssss1001mmmm, R263. -/
  | mla (c : Cond) (s : Bool) (rd rn rs rm : Reg)
  /-- `UMAAL` cccc00000100hhhhllllssss1001mmmm, R268. -/
  | umaal (c : Cond) (rdHi rdLo rs rm : Reg)
  /-- `UMULL` cccc0000100Shhhhllllssss1001mmmm, R264. -/
  | umull (c : Cond) (s : Bool) (rdHi rdLo rs rm : Reg)
  /-- `UMLAL` cccc0000101Shhhhllllssss1001mmmm, R265. -/
  | umlal (c : Cond) (s : Bool) (rdHi rdLo rs rm : Reg)
  /-- `SMULL` cccc0000110Shhhhllllssss1001mmmm, R266. -/
  | smull (c : Cond) (s : Bool) (rdHi rdLo rs rm : Reg)
  /-- `SMLAL` cccc0000111Shhhhllllssss1001mmmm, R267. -/
  | smlal (c : Cond) (s : Bool) (rdHi rdLo rs rm : Reg)
  /-- `SMLA<x><y>` cccc00010000ddddnnnnssss1yx0mmmm, R270. -/
  | smlaXY (c : Cond) (rd rn rs : Reg) (y x : Bool) (rm : Reg)
  /-- `SMLAW<y>` cccc00010010ddddnnnnssss1y00mmmm, R273. -/
  | smlawY (c : Cond) (rd rn rs : Reg) (y : Bool) (rm : Reg)
  /-- `SMULW<y>` cccc00010010ddddzzzzssss1y10mmmm, R272. -/
  | smulwY (c : Cond) (rd rs : Reg) (y : Bool) (rm : Reg)
  /-- `SMLAL<x><y>` cccc00010100hhhhllllssss1yx0mmmm, R271. -/
  | smlalXY (c : Cond) (rdHi rdLo rs : Reg) (y x : Bool) (rm : Reg)
  /-- `SMUL<x><y>` cccc00010110ddddzzzzssss1yx0mmmm, R269. -/
  | smulXY (c : Cond) (rd rs : Reg) (y x : Bool) (rm : Reg)
  /-- `SMUAD` cccc01110000dddd1111ssss00X1mmmm, R277. -/
  | smuad (c : Cond) (rd rs : Reg) (x : Bool) (rm : Reg)
  /-- `SMUSD` cccc01110000dddd1111ssss01X1mmmm, R278. -/
  | smusd (c : Cond) (rd rs : Reg) (x : Bool) (rm : Reg)
  /-- `SMLAD` cccc01110000ddddnnnnssss00X1mmmm, R279. -/
  | smlad (c : Cond) (rd rn rs : Reg) (x : Bool) (rm : Reg)
  /-- `SMLSD` cccc01110000ddddnnnnssss01X1mmmm, R280. -/
  | smlsd (c : Cond) (rd rn rs : Reg) (x : Bool) (rm : Reg)
  /-- `SMLALD` cccc01110100hhhhllllssss00X1mmmm, R281. -/
  | smlald (c : Cond) (rdHi rdLo rs : Reg) (x : Bool) (rm : Reg)
  /-- `SMLSLD` cccc01110100hhhhllllssss01X1mmmm, R282. -/
  | smlsld (c : Cond) (rdHi rdLo rs : Reg) (x : Bool) (rm : Reg)
  /-- `SMMUL` cccc01110101dddd1111ssss00R1mmmm, R274. -/
  | smmul (c : Cond) (rd rs : Reg) (r : Bool) (rm : Reg)
  /-- `SMMLA` cccc01110101ddddnnnnssss00R1mmmm, R275. -/
  | smmla (c : Cond) (rd rn rs : Reg) (r : Bool) (rm : Reg)
  /-- `SMMLS` cccc01110101ddddnnnnssss11R1mmmm, R276. -/
  | smmls (c : Cond) (rd rn rs : Reg) (r : Bool) (rm : Reg)
  -- parallel addition and subtraction (44_parallel_add_sub.md)
  /-- `SADD16` cccc01100001nnnnddddoooo0001mmmm, R312. -/
  | sadd16 (c : Cond) (rn rd rm : Reg)
  /-- `SADDSUBX` cccc01100001nnnnddddoooo0011mmmm, R314. -/
  | saddsubx (c : Cond) (rn rd rm : Reg)
  /-- `SSUBADDX` cccc01100001nnnnddddoooo0101mmmm, R317. -/
  | ssubaddx (c : Cond) (rn rd rm : Reg)
  /-- `SSUB16` cccc01100001nnnnddddoooo0111mmmm, R315. -/
  | ssub16 (c : Cond) (rn rd rm : Reg)
  /-- `SADD8` cccc01100001nnnnddddoooo1001mmmm, R313. -/
  | sadd8 (c : Cond) (rn rd rm : Reg)
  /-- `SSUB8` cccc01100001nnnnddddoooo1111mmmm, R316. -/
  | ssub8 (c : Cond) (rn rd rm : Reg)
  /-- `QADD16` cccc01100010nnnnddddoooo0001mmmm, R306. -/
  | qadd16 (c : Cond) (rn rd rm : Reg)
  /-- `QADDSUBX` cccc01100010nnnnddddoooo0011mmmm, R308. -/
  | qaddsubx (c : Cond) (rn rd rm : Reg)
  /-- `QSUBADDX` cccc01100010nnnnddddoooo0101mmmm, R311. -/
  | qsubaddx (c : Cond) (rn rd rm : Reg)
  /-- `QSUB16` cccc01100010nnnnddddoooo0111mmmm, R309. -/
  | qsub16 (c : Cond) (rn rd rm : Reg)
  /-- `QADD8` cccc01100010nnnnddddoooo1001mmmm, R307. -/
  | qadd8 (c : Cond) (rn rd rm : Reg)
  /-- `QSUB8` cccc01100010nnnnddddoooo1111mmmm, R310. -/
  | qsub8 (c : Cond) (rn rd rm : Reg)
  /-- `SHADD16` cccc01100011nnnnddddoooo0001mmmm, R318. -/
  | shadd16 (c : Cond) (rn rd rm : Reg)
  /-- `SHADDSUBX` cccc01100011nnnnddddoooo0011mmmm, R320. -/
  | shaddsubx (c : Cond) (rn rd rm : Reg)
  /-- `SHSUBADDX` cccc01100011nnnnddddoooo0101mmmm, R323. -/
  | shsubaddx (c : Cond) (rn rd rm : Reg)
  /-- `SHSUB16` cccc01100011nnnnddddoooo0111mmmm, R321. -/
  | shsub16 (c : Cond) (rn rd rm : Reg)
  /-- `SHADD8` cccc01100011nnnnddddoooo1001mmmm, R319. -/
  | shadd8 (c : Cond) (rn rd rm : Reg)
  /-- `SHSUB8` cccc01100011nnnnddddoooo1111mmmm, R322. -/
  | shsub8 (c : Cond) (rn rd rm : Reg)
  /-- `UADD16` cccc01100101nnnnddddoooo0001mmmm, R324. -/
  | uadd16 (c : Cond) (rn rd rm : Reg)
  /-- `UADDSUBX` cccc01100101nnnnddddoooo0011mmmm, R326. -/
  | uaddsubx (c : Cond) (rn rd rm : Reg)
  /-- `USUBADDX` cccc01100101nnnnddddoooo0101mmmm, R329. -/
  | usubaddx (c : Cond) (rn rd rm : Reg)
  /-- `USUB16` cccc01100101nnnnddddoooo0111mmmm, R327. -/
  | usub16 (c : Cond) (rn rd rm : Reg)
  /-- `UADD8` cccc01100101nnnnddddoooo1001mmmm, R325. -/
  | uadd8 (c : Cond) (rn rd rm : Reg)
  /-- `USUB8` cccc01100101nnnnddddoooo1111mmmm, R328. -/
  | usub8 (c : Cond) (rn rd rm : Reg)
  /-- `UQADD16` cccc01100110nnnnddddoooo0001mmmm, R336. -/
  | uqadd16 (c : Cond) (rn rd rm : Reg)
  /-- `UQADDSUBX` cccc01100110nnnnddddoooo0011mmmm, R338. -/
  | uqaddsubx (c : Cond) (rn rd rm : Reg)
  /-- `UQSUBADDX` cccc01100110nnnnddddoooo0101mmmm, R341. -/
  | uqsubaddx (c : Cond) (rn rd rm : Reg)
  /-- `UQSUB16` cccc01100110nnnnddddoooo0111mmmm, R339. -/
  | uqsub16 (c : Cond) (rn rd rm : Reg)
  /-- `UQADD8` cccc01100110nnnnddddoooo1001mmmm, R337. -/
  | uqadd8 (c : Cond) (rn rd rm : Reg)
  /-- `UQSUB8` cccc01100110nnnnddddoooo1111mmmm, R340. -/
  | uqsub8 (c : Cond) (rn rd rm : Reg)
  /-- `UHADD16` cccc01100111nnnnddddoooo0001mmmm, R330. -/
  | uhadd16 (c : Cond) (rn rd rm : Reg)
  /-- `UHADDSUBX` cccc01100111nnnnddddoooo0011mmmm, R332. -/
  | uhaddsubx (c : Cond) (rn rd rm : Reg)
  /-- `UHSUBADDX` cccc01100111nnnnddddoooo0101mmmm, R335. -/
  | uhsubaddx (c : Cond) (rn rd rm : Reg)
  /-- `UHSUB16` cccc01100111nnnnddddoooo0111mmmm, R333. -/
  | uhsub16 (c : Cond) (rn rd rm : Reg)
  /-- `UHADD8` cccc01100111nnnnddddoooo1001mmmm, R331. -/
  | uhadd8 (c : Cond) (rn rd rm : Reg)
  /-- `UHSUB8` cccc01100111nnnnddddoooo1111mmmm, R334. -/
  | uhsub8 (c : Cond) (rn rd rm : Reg)
  -- extend and miscellaneous (45_extend_misc.md)
  /-- `SXTAB16` cccc01101000nnnnddddrrzz0111mmmm, R352. -/
  | sxtab16 (c : Cond) (rn rd : Reg) (rot : BitVec 2) (rm : Reg)
  /-- `SXTB16` cccc011010001111ddddrrzz0111mmmm, R355. -/
  | sxtb16 (c : Cond) (rd : Reg) (rot : BitVec 2) (rm : Reg)
  /-- `SXTAB` cccc01101010nnnnddddrrzz0111mmmm, R353. -/
  | sxtab (c : Cond) (rn rd : Reg) (rot : BitVec 2) (rm : Reg)
  /-- `SXTB` cccc011010101111ddddrrzz0111mmmm, R356. -/
  | sxtb (c : Cond) (rd : Reg) (rot : BitVec 2) (rm : Reg)
  /-- `SXTAH` cccc01101011nnnnddddrrzz0111mmmm, R354. -/
  | sxtah (c : Cond) (rn rd : Reg) (rot : BitVec 2) (rm : Reg)
  /-- `SXTH` cccc011010111111ddddrrzz0111mmmm, R357. -/
  | sxth (c : Cond) (rd : Reg) (rot : BitVec 2) (rm : Reg)
  /-- `UXTAB16` cccc01101100nnnnddddrrzz0111mmmm, R358. -/
  | uxtab16 (c : Cond) (rn rd : Reg) (rot : BitVec 2) (rm : Reg)
  /-- `UXTB16` cccc011011001111ddddrrzz0111mmmm, R361. -/
  | uxtb16 (c : Cond) (rd : Reg) (rot : BitVec 2) (rm : Reg)
  /-- `UXTAB` cccc01101110nnnnddddrrzz0111mmmm, R359. -/
  | uxtab (c : Cond) (rn rd : Reg) (rot : BitVec 2) (rm : Reg)
  /-- `UXTB` cccc011011101111ddddrrzz0111mmmm, R362. -/
  | uxtb (c : Cond) (rd : Reg) (rot : BitVec 2) (rm : Reg)
  /-- `UXTAH` cccc01101111nnnnddddrrzz0111mmmm, R360. -/
  | uxtah (c : Cond) (rn rd : Reg) (rot : BitVec 2) (rm : Reg)
  /-- `UXTH` cccc011011111111ddddrrzz0111mmmm, R363. -/
  | uxth (c : Cond) (rd : Reg) (rot : BitVec 2) (rm : Reg)
  /-- `CLZ` cccc00010110ooooddddoooo0001mmmm, R364. -/
  | clz (c : Cond) (rd rm : Reg)
  /-- `USAD8` cccc01111000dddd1111ssss0001mmmm, R365. -/
  | usad8 (c : Cond) (rd rs rm : Reg)
  /-- `USADA8` cccc01111000ddddnnnnssss0001mmmm, R366. -/
  | usada8 (c : Cond) (rd rn rs rm : Reg)
  /-- `PKHBT` cccc01101000nnnnddddaaaaa001mmmm, R371. -/
  | pkhbt (c : Cond) (rn rd : Reg) (imm5 : BitVec 5) (rm : Reg)
  /-- `PKHTB` cccc01101000nnnnddddaaaaa101mmmm, R372. -/
  | pkhtb (c : Cond) (rn rd : Reg) (imm5 : BitVec 5) (rm : Reg)
  /-- `REV` cccc01101011ooooddddoooo0011mmmm, R373. -/
  | rev (c : Cond) (rd rm : Reg)
  /-- `REV16` cccc01101011ooooddddoooo1011mmmm, R374. -/
  | rev16 (c : Cond) (rd rm : Reg)
  /-- `REVSH` cccc01101111ooooddddoooo1011mmmm, R375. -/
  | revsh (c : Cond) (rd rm : Reg)
  /-- `SEL` cccc01101000nnnnddddoooo1011mmmm, R377. -/
  | sel (c : Cond) (rn rd rm : Reg)
  /-- `SSAT` cccc0110101iiiiiddddaaaaat01mmmm, R378. -/
  | ssat (c : Cond) (sat : BitVec 5) (rd : Reg) (imm5 : BitVec 5) (sh : Bool) (rm : Reg)
  /-- `SSAT16` cccc01101010iiiiddddoooo0011mmmm, R379. -/
  | ssat16 (c : Cond) (sat : BitVec 4) (rd rm : Reg)
  /-- `USAT` cccc0110111iiiiiddddaaaaat01mmmm, R380. -/
  | usat (c : Cond) (sat : BitVec 5) (rd : Reg) (imm5 : BitVec 5) (sh : Bool) (rm : Reg)
  /-- `USAT16` cccc01101110iiiiddddoooo0011mmmm, R381. -/
  | usat16 (c : Cond) (sat : BitVec 4) (rd rm : Reg)
  /-- `QADD` cccc00010000nnnnddddzzzz0101mmmm, R386. -/
  | qadd (c : Cond) (rn rd rm : Reg)
  /-- `QSUB` cccc00010010nnnnddddzzzz0101mmmm, R387. -/
  | qsub (c : Cond) (rn rd rm : Reg)
  /-- `QDADD` cccc00010100nnnnddddzzzz0101mmmm, R388. -/
  | qdadd (c : Cond) (rn rd rm : Reg)
  /-- `QDSUB` cccc00010110nnnnddddzzzz0101mmmm, R389. -/
  | qdsub (c : Cond) (rn rd rm : Reg)
  -- status register access (46_status_register.md)
  /-- `MRS` cccc00010R00ooooddddzzzz0000zzzz, R402. -/
  | mrs (c : Cond) (r : Bool) (rd : Reg)
  /-- `MSR` cccc00110R10ffffoooorrrriiiiiiii, R404. -/
  | msrImm (c : Cond) (r : Bool) (mask rot : BitVec 4) (imm8 : BitVec 8)
  /-- `MSR` cccc00010R10ffffoooozzzz0000mmmm, R405. -/
  | msrReg (c : Cond) (r : Bool) (mask : BitVec 4) (rm : Reg)
  /-- `CPS` 111100010000iiM0zzzzzzzAIF0mmmmm, R406. -/
  | cps (imod : BitVec 2) (mmod a i f : Bool) (mode : BitVec 5)
  /-- `SETEND` 111100010000zzz1zzzzzzEzzz0zzzzz, R407. -/
  | setend (e : Bool)
  -- branch (41_branch.md)
  /-- `B` cccc1010iiiiiiiiiiiiiiiiiiiiiiii, R181. -/
  | b (c : Cond) (imm24 : BitVec 24)
  /-- `BL` cccc1011iiiiiiiiiiiiiiiiiiiiiiii, R182. -/
  | bl (c : Cond) (imm24 : BitVec 24)
  /-- `BLX__1` 1111101Hiiiiiiiiiiiiiiiiiiiiiiii, R183. -/
  | blx1 (h : Bool) (imm24 : BitVec 24)
  /-- `BLX__2` cccc00010010oooooooooooo0011mmmm, R184. -/
  | blx2 (c : Cond) (rm : Reg)
  /-- `BX` cccc00010010oooooooooooo0001mmmm, R185. -/
  | bx (c : Cond) (rm : Reg)
  /-- `BXJ` cccc00010010oooooooooooo0010mmmm, R186. -/
  | bxj (c : Cond) (rm : Reg)
  -- load and store (47_load_store.md)
  /-- `LDR` cccc010PU0W1nnnnddddiiiiiiiiiiii, R431. -/
  | ldrImm (c : Cond) (im : IndexMode) (u : Bool) (rn rd : Reg) (imm12 : BitVec 12)
  /-- `LDR` cccc011PU0W1nnnnddddaaaaatt0mmmm, R431. -/
  | ldrReg (c : Cond) (im : IndexMode) (u : Bool) (rn rd : Reg) (imm5 : BitVec 5) (ty : ShiftType) (rm : Reg)
  /-- `LDRB` cccc010PU1W1nnnnddddiiiiiiiiiiii, R432. -/
  | ldrbImm (c : Cond) (im : IndexMode) (u : Bool) (rn rd : Reg) (imm12 : BitVec 12)
  /-- `LDRB` cccc011PU1W1nnnnddddaaaaatt0mmmm, R432. -/
  | ldrbReg (c : Cond) (im : IndexMode) (u : Bool) (rn rd : Reg) (imm5 : BitVec 5) (ty : ShiftType) (rm : Reg)
  /-- `STR` cccc010PU0W0nnnnddddiiiiiiiiiiii, R440. -/
  | strImm (c : Cond) (im : IndexMode) (u : Bool) (rn rd : Reg) (imm12 : BitVec 12)
  /-- `STR` cccc011PU0W0nnnnddddaaaaatt0mmmm, R440. -/
  | strReg (c : Cond) (im : IndexMode) (u : Bool) (rn rd : Reg) (imm5 : BitVec 5) (ty : ShiftType) (rm : Reg)
  /-- `STRB` cccc010PU1W0nnnnddddiiiiiiiiiiii, R441. -/
  | strbImm (c : Cond) (im : IndexMode) (u : Bool) (rn rd : Reg) (imm12 : BitVec 12)
  /-- `STRB` cccc011PU1W0nnnnddddaaaaatt0mmmm, R441. -/
  | strbReg (c : Cond) (im : IndexMode) (u : Bool) (rn rd : Reg) (imm5 : BitVec 5) (ty : ShiftType) (rm : Reg)
  /-- `LDRT` cccc0100U011nnnnddddiiiiiiiiiiii, R439. -/
  | ldrtImm (c : Cond) (u : Bool) (rn rd : Reg) (imm12 : BitVec 12)
  /-- `LDRT` cccc0110U011nnnnddddaaaaatt0mmmm, R439. -/
  | ldrtReg (c : Cond) (u : Bool) (rn rd : Reg) (imm5 : BitVec 5) (ty : ShiftType) (rm : Reg)
  /-- `LDRBT` cccc0100U111nnnnddddiiiiiiiiiiii, R433. -/
  | ldrbtImm (c : Cond) (u : Bool) (rn rd : Reg) (imm12 : BitVec 12)
  /-- `LDRBT` cccc0110U111nnnnddddaaaaatt0mmmm, R433. -/
  | ldrbtReg (c : Cond) (u : Bool) (rn rd : Reg) (imm5 : BitVec 5) (ty : ShiftType) (rm : Reg)
  /-- `STRT` cccc0100U010nnnnddddiiiiiiiiiiii, R445. -/
  | strtImm (c : Cond) (u : Bool) (rn rd : Reg) (imm12 : BitVec 12)
  /-- `STRT` cccc0110U010nnnnddddaaaaatt0mmmm, R445. -/
  | strtReg (c : Cond) (u : Bool) (rn rd : Reg) (imm5 : BitVec 5) (ty : ShiftType) (rm : Reg)
  /-- `STRBT` cccc0100U110nnnnddddiiiiiiiiiiii, R442. -/
  | strbtImm (c : Cond) (u : Bool) (rn rd : Reg) (imm12 : BitVec 12)
  /-- `STRBT` cccc0110U110nnnnddddaaaaatt0mmmm, R442. -/
  | strbtReg (c : Cond) (u : Bool) (rn rd : Reg) (imm5 : BitVec 5) (ty : ShiftType) (rm : Reg)
  /-- `STRH` cccc000PU1W0nnnnddddHHHH1011LLLL, R444. -/
  | strhImm (c : Cond) (im : IndexMode) (u : Bool) (rn rd : Reg) (imm8 : BitVec 8)
  /-- `STRH` cccc000PU0W0nnnnddddzzzz1011mmmm, R444. -/
  | strhReg (c : Cond) (im : IndexMode) (u : Bool) (rn rd rm : Reg)
  /-- `LDRD` cccc000PU1W0nnnnddddHHHH1101LLLL, R435. -/
  | ldrdImm (c : Cond) (im : IndexMode) (u : Bool) (rn rd : Reg) (imm8 : BitVec 8)
  /-- `LDRD` cccc000PU0W0nnnnddddzzzz1101mmmm, R435. -/
  | ldrdReg (c : Cond) (im : IndexMode) (u : Bool) (rn rd rm : Reg)
  /-- `STRD` cccc000PU1W0nnnnddddHHHH1111LLLL, R443. -/
  | strdImm (c : Cond) (im : IndexMode) (u : Bool) (rn rd : Reg) (imm8 : BitVec 8)
  /-- `STRD` cccc000PU0W0nnnnddddzzzz1111mmmm, R443. -/
  | strdReg (c : Cond) (im : IndexMode) (u : Bool) (rn rd rm : Reg)
  /-- `LDRH` cccc000PU1W1nnnnddddHHHH1011LLLL, R436. -/
  | ldrhImm (c : Cond) (im : IndexMode) (u : Bool) (rn rd : Reg) (imm8 : BitVec 8)
  /-- `LDRH` cccc000PU0W1nnnnddddzzzz1011mmmm, R436. -/
  | ldrhReg (c : Cond) (im : IndexMode) (u : Bool) (rn rd rm : Reg)
  /-- `LDRSB` cccc000PU1W1nnnnddddHHHH1101LLLL, R437. -/
  | ldrsbImm (c : Cond) (im : IndexMode) (u : Bool) (rn rd : Reg) (imm8 : BitVec 8)
  /-- `LDRSB` cccc000PU0W1nnnnddddzzzz1101mmmm, R437. -/
  | ldrsbReg (c : Cond) (im : IndexMode) (u : Bool) (rn rd rm : Reg)
  /-- `LDRSH` cccc000PU1W1nnnnddddHHHH1111LLLL, R438. -/
  | ldrshImm (c : Cond) (im : IndexMode) (u : Bool) (rn rd : Reg) (imm8 : BitVec 8)
  /-- `LDRSH` cccc000PU0W1nnnnddddzzzz1111mmmm, R438. -/
  | ldrshReg (c : Cond) (im : IndexMode) (u : Bool) (rn rd rm : Reg)
  /-- `LDREX` cccc00011001nnnnddddoooo1001oooo, R446. -/
  | ldrex (c : Cond) (rn rd : Reg)
  /-- `STREX` cccc00011000nnnnddddoooo1001mmmm, R447. -/
  | strex (c : Cond) (rn rd rm : Reg)
  /-- `PLD` 11110101U101nnnnooooiiiiiiiiiiii, R448. -/
  | pldImm (u : Bool) (rn : Reg) (imm12 : BitVec 12)
  /-- `PLD` 11110111U101nnnnooooaaaaatt0mmmm, R448. -/
  | pldReg (u : Bool) (rn : Reg) (imm5 : BitVec 5) (ty : ShiftType) (rm : Reg)
  -- load and store multiple, return state, semaphores (48_load_store_multiple_semaphore.md)
  /-- `LDM__1` cccc100PU0W1nnnnrrrrrrrrrrrrrrrr, R474. -/
  | ldm1 (c : Cond) (am : BlockMode) (w : Bool) (rn : Reg) (list : BitVec 16)
  /-- `LDM__2` cccc100PU1z1nnnn0rrrrrrrrrrrrrrr, R475. -/
  | ldm2 (c : Cond) (am : BlockMode) (rn : Reg) (list : BitVec 15)
  /-- `LDM__3` cccc100PU1W1nnnn1rrrrrrrrrrrrrrr, R476. -/
  | ldm3 (c : Cond) (am : BlockMode) (w : Bool) (rn : Reg) (list : BitVec 15)
  /-- `STM__1` cccc100PU0W0nnnnrrrrrrrrrrrrrrrr, R477. -/
  | stm1 (c : Cond) (am : BlockMode) (w : Bool) (rn : Reg) (list : BitVec 16)
  /-- `STM__2` cccc100PU1z0nnnnrrrrrrrrrrrrrrrr, R478. -/
  | stm2 (c : Cond) (am : BlockMode) (rn : Reg) (list : BitVec 16)
  /-- `RFE` 1111100PU0W1nnnnzzzzozozzzzzzzzz, R480. -/
  | rfe (am : BlockMode) (w : Bool) (rn : Reg)
  /-- `SRS` 1111100PU1W0oozozzzzzozozzzmmmmm, R481. -/
  | srs (am : BlockMode) (w : Bool) (mode : BitVec 5)
  /-- `SWP` cccc00010000nnnnddddzzzz1001mmmm, R490. -/
  | swp (c : Cond) (rn rd rm : Reg)
  /-- `SWPB` cccc00010100nnnnddddzzzz1001mmmm, R491. -/
  | swpb (c : Cond) (rn rd rm : Reg)
  -- exception generating (49_exception_coprocessor.md)
  /-- `SWI` cccc1111iiiiiiiiiiiiiiiiiiiiiiii, R500. -/
  | swi (c : Cond) (imm24 : BitVec 24)
  /-- `BKPT` cccc00010010iiiiiiiiiiii0111jjjj, R501. -/
  | bkpt (c : Cond) (imm16 : BitVec 16)
  /-- `UNDEFINED__architecturally_Undefined` cccc01111111xxxxxxxxxxxx1111yyyy, R503. -/
  | undef (c : Cond) (imm16 : BitVec 16)
  -- coprocessor (49_exception_coprocessor.md)
  /-- `CDP` cccc1110aaaannnnddddppppbbb0mmmm, R513. -/
  | cdp (c : Cond) (opc1 : BitVec 4) (crn crd cp : CpField) (opc2 : BitVec 3) (crm : CpField)
  /-- `LDC` cccc110PUNW1nnnnddddppppiiiiiiii, R514. -/
  | ldc (c : Cond) (p u n w : Bool) (rn : Reg) (crd cp : CpField) (imm8 : BitVec 8)
  /-- `STC` cccc110PUNW0nnnnddddppppiiiiiiii, R519. -/
  | stc (c : Cond) (p u n w : Bool) (rn : Reg) (crd cp : CpField) (imm8 : BitVec 8)
  /-- `MCR` cccc1110aaa0nnnnddddppppbbb1mmmm, R515. -/
  | mcr (c : Cond) (opc1 : BitVec 3) (crn : CpField) (rd : Reg) (cp : CpField) (opc2 : BitVec 3) (crm : CpField)
  /-- `MRC` cccc1110aaa1nnnnddddppppbbb1mmmm, R517. -/
  | mrc (c : Cond) (opc1 : BitVec 3) (crn : CpField) (rd : Reg) (cp : CpField) (opc2 : BitVec 3) (crm : CpField)
  /-- `MCRR` cccc11000100nnnnddddppppaaaammmm, R516. -/
  | mcrr (c : Cond) (rn rd : Reg) (cp : CpField) (opc : BitVec 4) (crm : CpField)
  /-- `MRRC` cccc11000101nnnnddddppppaaaammmm, R518. -/
  | mrrc (c : Cond) (rn rd : Reg) (cp : CpField) (opc : BitVec 4) (crm : CpField)
  /-- `CDP2` 11111110aaaannnnddddppppbbb0mmmm, R521. -/
  | cdp2 (opc1 : BitVec 4) (crn crd cp : CpField) (opc2 : BitVec 3) (crm : CpField)
  /-- `LDC2` 1111110PUNW1nnnnddddppppiiiiiiii, R522. -/
  | ldc2 (p u n w : Bool) (rn : Reg) (crd cp : CpField) (imm8 : BitVec 8)
  /-- `STC2` 1111110PUNW0nnnnddddppppiiiiiiii, R525. -/
  | stc2 (p u n w : Bool) (rn : Reg) (crd cp : CpField) (imm8 : BitVec 8)
  /-- `MCR2` 11111110aaa0nnnnddddppppbbb1mmmm, R523. -/
  | mcr2 (opc1 : BitVec 3) (crn : CpField) (rd : Reg) (cp : CpField) (opc2 : BitVec 3) (crm : CpField)
  /-- `MRC2` 11111110aaa1nnnnddddppppbbb1mmmm, R524. -/
  | mrc2 (opc1 : BitVec 3) (crn : CpField) (rd : Reg) (cp : CpField) (opc2 : BitVec 3) (crm : CpField)
  /-- `MCRR2` 111111000100nnnnddddppppaaaammmm, R526. -/
  | mcrr2 (rn rd : Reg) (cp : CpField) (opc : BitVec 4) (crm : CpField)
  /-- `MRRC2` 111111000101nnnnddddppppaaaammmm, R527. -/
  | mrrc2 (rn rd : Reg) (cp : CpField) (opc : BitVec 4) (crm : CpField)
deriving DecidableEq, Repr

end Sys2Proof
end

