-- ==== Sys2Proof/WellFormed.lean ====
section
/-! DEFINITION. Well-formed instructions: those an encoding exists for. Every other restriction on operands (a forbidden
R15, registers that must differ) makes the instruction UNPREDICTABLE, not unencodable (30_encoding.md R129), and is checked
by the instruction's meaning. -/
namespace Sys2Proof

/-- The field holds a register number, not the pattern 0b1111 that selects the row without that operand
(43_multiply.md R275, R279, R280; 45_extend_misc.md R351, R366). -/
def notAll1 (r : Reg) : Bool := r != 15

/-- LDC, STC and their 2 forms have no encoding with P = U = W = 0: those words are MCRR, MRRC or UNDEFINED
(30_encoding.md R124). -/
def ldcForm (p u w : Bool) : Bool := p || u || w

/-- The instruction has an encoding. -/
def Instr.wf : Instr → Bool
  | .andShift _ _ _ _ _ _ _ => true
  | .andReg _ _ _ _ _ _ _ => true
  | .andImm _ _ _ _ _ _ => true
  | .eorShift _ _ _ _ _ _ _ => true
  | .eorReg _ _ _ _ _ _ _ => true
  | .eorImm _ _ _ _ _ _ => true
  | .subShift _ _ _ _ _ _ _ => true
  | .subReg _ _ _ _ _ _ _ => true
  | .subImm _ _ _ _ _ _ => true
  | .rsbShift _ _ _ _ _ _ _ => true
  | .rsbReg _ _ _ _ _ _ _ => true
  | .rsbImm _ _ _ _ _ _ => true
  | .addShift _ _ _ _ _ _ _ => true
  | .addReg _ _ _ _ _ _ _ => true
  | .addImm _ _ _ _ _ _ => true
  | .adcShift _ _ _ _ _ _ _ => true
  | .adcReg _ _ _ _ _ _ _ => true
  | .adcImm _ _ _ _ _ _ => true
  | .sbcShift _ _ _ _ _ _ _ => true
  | .sbcReg _ _ _ _ _ _ _ => true
  | .sbcImm _ _ _ _ _ _ => true
  | .rscShift _ _ _ _ _ _ _ => true
  | .rscReg _ _ _ _ _ _ _ => true
  | .rscImm _ _ _ _ _ _ => true
  | .tstShift _ _ _ _ _ => true
  | .tstReg _ _ _ _ _ => true
  | .tstImm _ _ _ _ => true
  | .teqShift _ _ _ _ _ => true
  | .teqReg _ _ _ _ _ => true
  | .teqImm _ _ _ _ => true
  | .cmpShift _ _ _ _ _ => true
  | .cmpReg _ _ _ _ _ => true
  | .cmpImm _ _ _ _ => true
  | .cmnShift _ _ _ _ _ => true
  | .cmnReg _ _ _ _ _ => true
  | .cmnImm _ _ _ _ => true
  | .orrShift _ _ _ _ _ _ _ => true
  | .orrReg _ _ _ _ _ _ _ => true
  | .orrImm _ _ _ _ _ _ => true
  | .movShift _ _ _ _ _ _ => true
  | .movReg _ _ _ _ _ _ => true
  | .movImm _ _ _ _ _ => true
  | .bicShift _ _ _ _ _ _ _ => true
  | .bicReg _ _ _ _ _ _ _ => true
  | .bicImm _ _ _ _ _ _ => true
  | .mvnShift _ _ _ _ _ _ => true
  | .mvnReg _ _ _ _ _ _ => true
  | .mvnImm _ _ _ _ _ => true
  | .mul _ _ _ _ _ => true
  | .mla _ _ _ _ _ _ => true
  | .umaal _ _ _ _ _ => true
  | .umull _ _ _ _ _ _ => true
  | .umlal _ _ _ _ _ _ => true
  | .smull _ _ _ _ _ _ => true
  | .smlal _ _ _ _ _ _ => true
  | .smlaXY _ _ _ _ _ _ _ => true
  | .smlawY _ _ _ _ _ _ => true
  | .smulwY _ _ _ _ _ => true
  | .smlalXY _ _ _ _ _ _ _ => true
  | .smulXY _ _ _ _ _ _ => true
  | .smuad _ _ _ _ _ => true
  | .smusd _ _ _ _ _ => true
  | .smlad _ _ rn _ _ _ => notAll1 rn
  | .smlsd _ _ rn _ _ _ => notAll1 rn
  | .smlald _ _ _ _ _ _ => true
  | .smlsld _ _ _ _ _ _ => true
  | .smmul _ _ _ _ _ => true
  | .smmla _ _ rn _ _ _ => notAll1 rn
  | .smmls _ _ _ _ _ _ => true
  | .sadd16 _ _ _ _ => true
  | .saddsubx _ _ _ _ => true
  | .ssubaddx _ _ _ _ => true
  | .ssub16 _ _ _ _ => true
  | .sadd8 _ _ _ _ => true
  | .ssub8 _ _ _ _ => true
  | .qadd16 _ _ _ _ => true
  | .qaddsubx _ _ _ _ => true
  | .qsubaddx _ _ _ _ => true
  | .qsub16 _ _ _ _ => true
  | .qadd8 _ _ _ _ => true
  | .qsub8 _ _ _ _ => true
  | .shadd16 _ _ _ _ => true
  | .shaddsubx _ _ _ _ => true
  | .shsubaddx _ _ _ _ => true
  | .shsub16 _ _ _ _ => true
  | .shadd8 _ _ _ _ => true
  | .shsub8 _ _ _ _ => true
  | .uadd16 _ _ _ _ => true
  | .uaddsubx _ _ _ _ => true
  | .usubaddx _ _ _ _ => true
  | .usub16 _ _ _ _ => true
  | .uadd8 _ _ _ _ => true
  | .usub8 _ _ _ _ => true
  | .uqadd16 _ _ _ _ => true
  | .uqaddsubx _ _ _ _ => true
  | .uqsubaddx _ _ _ _ => true
  | .uqsub16 _ _ _ _ => true
  | .uqadd8 _ _ _ _ => true
  | .uqsub8 _ _ _ _ => true
  | .uhadd16 _ _ _ _ => true
  | .uhaddsubx _ _ _ _ => true
  | .uhsubaddx _ _ _ _ => true
  | .uhsub16 _ _ _ _ => true
  | .uhadd8 _ _ _ _ => true
  | .uhsub8 _ _ _ _ => true
  | .sxtab16 _ rn _ _ _ => notAll1 rn
  | .sxtb16 _ _ _ _ => true
  | .sxtab _ rn _ _ _ => notAll1 rn
  | .sxtb _ _ _ _ => true
  | .sxtah _ rn _ _ _ => notAll1 rn
  | .sxth _ _ _ _ => true
  | .uxtab16 _ rn _ _ _ => notAll1 rn
  | .uxtb16 _ _ _ _ => true
  | .uxtab _ rn _ _ _ => notAll1 rn
  | .uxtb _ _ _ _ => true
  | .uxtah _ rn _ _ _ => notAll1 rn
  | .uxth _ _ _ _ => true
  | .clz _ _ _ => true
  | .usad8 _ _ _ _ => true
  | .usada8 _ _ rn _ _ => notAll1 rn
  | .pkhbt _ _ _ _ _ => true
  | .pkhtb _ _ _ _ _ => true
  | .rev _ _ _ => true
  | .rev16 _ _ _ => true
  | .revsh _ _ _ => true
  | .sel _ _ _ _ => true
  | .ssat _ _ _ _ _ _ => true
  | .ssat16 _ _ _ _ => true
  | .usat _ _ _ _ _ _ => true
  | .usat16 _ _ _ _ => true
  | .qadd _ _ _ _ => true
  | .qsub _ _ _ _ => true
  | .qdadd _ _ _ _ => true
  | .qdsub _ _ _ _ => true
  | .mrs _ _ _ => true
  | .msrImm _ _ _ _ _ => true
  | .msrReg _ _ _ _ => true
  | .cps _ _ _ _ _ _ => true
  | .setend _ => true
  | .b _ _ => true
  | .bl _ _ => true
  | .blx1 _ _ => true
  | .blx2 _ _ => true
  | .bx _ _ => true
  | .bxj _ _ => true
  | .ldrImm _ _ _ _ _ _ => true
  | .ldrReg _ _ _ _ _ _ _ _ => true
  | .ldrbImm _ _ _ _ _ _ => true
  | .ldrbReg _ _ _ _ _ _ _ _ => true
  | .strImm _ _ _ _ _ _ => true
  | .strReg _ _ _ _ _ _ _ _ => true
  | .strbImm _ _ _ _ _ _ => true
  | .strbReg _ _ _ _ _ _ _ _ => true
  | .ldrtImm _ _ _ _ _ => true
  | .ldrtReg _ _ _ _ _ _ _ => true
  | .ldrbtImm _ _ _ _ _ => true
  | .ldrbtReg _ _ _ _ _ _ _ => true
  | .strtImm _ _ _ _ _ => true
  | .strtReg _ _ _ _ _ _ _ => true
  | .strbtImm _ _ _ _ _ => true
  | .strbtReg _ _ _ _ _ _ _ => true
  | .strhImm _ _ _ _ _ _ => true
  | .strhReg _ _ _ _ _ _ => true
  | .ldrdImm _ _ _ _ _ _ => true
  | .ldrdReg _ _ _ _ _ _ => true
  | .strdImm _ _ _ _ _ _ => true
  | .strdReg _ _ _ _ _ _ => true
  | .ldrhImm _ _ _ _ _ _ => true
  | .ldrhReg _ _ _ _ _ _ => true
  | .ldrsbImm _ _ _ _ _ _ => true
  | .ldrsbReg _ _ _ _ _ _ => true
  | .ldrshImm _ _ _ _ _ _ => true
  | .ldrshReg _ _ _ _ _ _ => true
  | .ldrex _ _ _ => true
  | .strex _ _ _ _ => true
  | .pldImm _ _ _ => true
  | .pldReg _ _ _ _ _ => true
  | .ldm1 _ _ _ _ _ => true
  | .ldm2 _ _ _ _ => true
  | .ldm3 _ _ _ _ _ => true
  | .stm1 _ _ _ _ _ => true
  | .stm2 _ _ _ _ => true
  | .rfe _ _ _ => true
  | .srs _ _ _ => true
  | .swp _ _ _ _ => true
  | .swpb _ _ _ _ => true
  | .swi _ _ => true
  | .bkpt _ _ => true
  | .undef _ _ => true
  | .cdp _ _ _ _ _ _ _ => true
  | .ldc _ p u _ w _ _ _ _ => ldcForm p u w
  | .stc _ p u _ w _ _ _ _ => ldcForm p u w
  | .mcr _ _ _ _ _ _ _ => true
  | .mrc _ _ _ _ _ _ _ => true
  | .mcrr _ _ _ _ _ _ => true
  | .mrrc _ _ _ _ _ _ => true
  | .cdp2 _ _ _ _ _ _ => true
  | .ldc2 p u _ w _ _ _ _ => ldcForm p u w
  | .stc2 p u _ w _ _ _ _ => ldcForm p u w
  | .mcr2 _ _ _ _ _ _ => true
  | .mrc2 _ _ _ _ _ _ => true
  | .mcrr2 _ _ _ _ _ => true
  | .mrrc2 _ _ _ _ _ => true

end Sys2Proof
end

