-- ==== Sys2Proof/Decode.lean ====
section
/-! DEFINITION. The decoder, total on words (30_encoding.md R126, R127, R129, R130), table driven: one `Row` for each row
of spec/opcode_table.json (R139). Then the encoder, written from the same encodings. -/
namespace Sys2Proof

/-! ### Fields of a word -/

/-- The `len` bits of a word from bit `lo` up (00_scope.md R9). -/
def field (w : Word) (lo len : Nat) : BitVec len := w.extractLsb' lo len

/-- Bit `i` of a word (R9). -/
def bitAt (w : Word) (i : Nat) : Bool := w.getLsbD i

/-- A field put at bit `lo` of a word of zeros. -/
def place (lo : Nat) {len : Nat} (v : BitVec len) : Word := v.setWidth 32 <<< lo

/-- One bit put at bit `lo` of a word of zeros. -/
def flag (lo : Nat) (b : Bool) : Word := place lo (BitVec.ofBool b)

/-- The condition codes of 40_condition_execution.md R161. -/
def Cond.code : Cond → BitVec 4
  | .eq => 0b0000 | .ne => 0b0001 | .cs => 0b0010 | .cc => 0b0011 | .mi => 0b0100 | .pl => 0b0101 | .vs => 0b0110
  | .vc => 0b0111 | .hi => 0b1000 | .ls => 0b1001 | .ge => 0b1010 | .lt => 0b1011 | .gt => 0b1100 | .le => 0b1101
  | .al => 0b1110

/-- The condition of a code. No row with a `cond` field matches a word whose code is 0b1111 (R163). -/
def Cond.ofCode (v : BitVec 4) : Cond :=
  if v = 0b0000 then .eq else if v = 0b0001 then .ne else if v = 0b0010 then .cs else if v = 0b0011 then .cc
  else if v = 0b0100 then .mi else if v = 0b0101 then .pl else if v = 0b0110 then .vs else if v = 0b0111 then .vc
  else if v = 0b1000 then .hi else if v = 0b1001 then .ls else if v = 0b1010 then .ge else if v = 0b1011 then .lt
  else if v = 0b1100 then .gt else if v = 0b1101 then .le else .al

/-- The codes of the shift field (30_encoding.md R109). -/
def ShiftType.code : ShiftType → BitVec 2
  | .lsl => 0b00 | .lsr => 0b01 | .asr => 0b10 | .ror => 0b11

/-- The shift of a code (R109). -/
def ShiftType.ofCode (v : BitVec 2) : ShiftType :=
  if v = 0b00 then .lsl else if v = 0b01 then .lsr else if v = 0b10 then .asr else .ror

/-- The P bit of an index mode (47_load_store.md R421). -/
def IndexMode.p : IndexMode → Bool
  | .offset => true | .pre => true | .post => false

/-- The W bit of an index mode (R421). -/
def IndexMode.w : IndexMode → Bool
  | .offset => false | .pre => true | .post => false

/-- The index mode of the P and W bits (R421). -/
def IndexMode.of (p w : Bool) : IndexMode :=
  if p then (if w then .pre else .offset) else .post

/-- The P bit of a block mode (48_load_store_multiple_semaphore.md R471). -/
def BlockMode.p : BlockMode → Bool
  | .da => false | .ia => false | .db => true | .ib => true

/-- The U bit of a block mode (R471). -/
def BlockMode.u : BlockMode → Bool
  | .da => false | .ia => true | .db => false | .ib => true

/-- The block mode of the P and U bits (R471). -/
def BlockMode.of (p u : Bool) : BlockMode :=
  if p then (if u then .ib else .db) else (if u then .ia else .da)

/-! ### The table -/

/-- What a word decodes to: an instruction; UNDEFINED, the decode bits of no instruction (30_encoding.md R130); or
UNPREDICTABLE, the decode bits of an instruction in a word that is none (R129). -/
inductive Decoded where
  | instr (i : Instr)
  | undefined
  | unpredictable
deriving DecidableEq, Repr

/-- A row of the opcode table (R139): the word matches when its bits under `mask` are `pattern` and it is in none of
`exclude` (each a mask and a pattern). A word that matches is an instruction when its bits under `sbz` are 0, its bits
under `sbo` are 1 and it is in none of `unpred`; otherwise it is UNPREDICTABLE (R129). -/
structure Row where
  mask : Word
  pattern : Word
  exclude : List (Word × Word)
  sbz : Word
  sbo : Word
  unpred : List (Word × Word)
  build : Word → Instr

/-- The word has the decode bits of the row. -/
def Row.accepts (r : Row) (w : Word) : Bool :=
  w &&& r.mask == r.pattern && r.exclude.all (fun e => w &&& e.1 != e.2)

/-- A word of the row is an instruction. -/
def Row.proper (r : Row) (w : Word) : Bool :=
  w &&& r.sbz == 0 && w &&& r.sbo == r.sbo && r.unpred.all (fun e => w &&& e.1 != e.2)

/-- `cond == 0b1111` is not a condition (R102, R163). -/
def condF : Word × Word := (0xF0000000, 0xF0000000)

/-- P == 0 with W == 1 (47_load_store.md R421, R430). -/
def postW : Word × Word := (0x01200000, 0x00200000)

/-- P == U == W == 0 (30_encoding.md R124). -/
def noPUW : Word × Word := (0x01A00000, 0x00000000)

/-- Bits 15:12 all 1: the row without that operand. -/
def field12Ones : Word × Word := (0x0000F000, 0x0000F000)

/-- Bits 19:16 all 1: the row without that operand. -/
def field16Ones : Word × Word := (0x000F0000, 0x000F0000)

/-- The rows of AND, EOR. -/
def rowsLogical : List Row := [
  -- AND cccc0000000Snnnnddddaaaaatt0mmmm
  ⟨0x0FE00010, 0x00000000, [condF], 0x00000000, 0x00000000, [],
    fun w => .andShift (Cond.ofCode (field w 28 4)) (bitAt w 20) (field w 16 4) (field w 12 4) (field w 7 5) (ShiftType.ofCode (field w 5 2)) (field w 0 4)⟩,
  -- AND cccc0000000Snnnnddddssss0tt1mmmm
  ⟨0x0FE00090, 0x00000010, [condF], 0x00000000, 0x00000000, [],
    fun w => .andReg (Cond.ofCode (field w 28 4)) (bitAt w 20) (field w 16 4) (field w 12 4) (field w 8 4) (ShiftType.ofCode (field w 5 2)) (field w 0 4)⟩,
  -- AND cccc0010000Snnnnddddrrrriiiiiiii
  ⟨0x0FE00000, 0x02000000, [condF], 0x00000000, 0x00000000, [],
    fun w => .andImm (Cond.ofCode (field w 28 4)) (bitAt w 20) (field w 16 4) (field w 12 4) (field w 8 4) (field w 0 8)⟩,
  -- EOR cccc0000001Snnnnddddaaaaatt0mmmm
  ⟨0x0FE00010, 0x00200000, [condF], 0x00000000, 0x00000000, [],
    fun w => .eorShift (Cond.ofCode (field w 28 4)) (bitAt w 20) (field w 16 4) (field w 12 4) (field w 7 5) (ShiftType.ofCode (field w 5 2)) (field w 0 4)⟩,
  -- EOR cccc0000001Snnnnddddssss0tt1mmmm
  ⟨0x0FE00090, 0x00200010, [condF], 0x00000000, 0x00000000, [],
    fun w => .eorReg (Cond.ofCode (field w 28 4)) (bitAt w 20) (field w 16 4) (field w 12 4) (field w 8 4) (ShiftType.ofCode (field w 5 2)) (field w 0 4)⟩,
  -- EOR cccc0010001Snnnnddddrrrriiiiiiii
  ⟨0x0FE00000, 0x02200000, [condF], 0x00000000, 0x00000000, [],
    fun w => .eorImm (Cond.ofCode (field w 28 4)) (bitAt w 20) (field w 16 4) (field w 12 4) (field w 8 4) (field w 0 8)⟩]

/-- The rows of SUB to RSC. -/
def rowsAddSub : List Row := [
  -- SUB cccc0000010Snnnnddddaaaaatt0mmmm
  ⟨0x0FE00010, 0x00400000, [condF], 0x00000000, 0x00000000, [],
    fun w => .subShift (Cond.ofCode (field w 28 4)) (bitAt w 20) (field w 16 4) (field w 12 4) (field w 7 5) (ShiftType.ofCode (field w 5 2)) (field w 0 4)⟩,
  -- SUB cccc0000010Snnnnddddssss0tt1mmmm
  ⟨0x0FE00090, 0x00400010, [condF], 0x00000000, 0x00000000, [],
    fun w => .subReg (Cond.ofCode (field w 28 4)) (bitAt w 20) (field w 16 4) (field w 12 4) (field w 8 4) (ShiftType.ofCode (field w 5 2)) (field w 0 4)⟩,
  -- SUB cccc0010010Snnnnddddrrrriiiiiiii
  ⟨0x0FE00000, 0x02400000, [condF], 0x00000000, 0x00000000, [],
    fun w => .subImm (Cond.ofCode (field w 28 4)) (bitAt w 20) (field w 16 4) (field w 12 4) (field w 8 4) (field w 0 8)⟩,
  -- RSB cccc0000011Snnnnddddaaaaatt0mmmm
  ⟨0x0FE00010, 0x00600000, [condF], 0x00000000, 0x00000000, [],
    fun w => .rsbShift (Cond.ofCode (field w 28 4)) (bitAt w 20) (field w 16 4) (field w 12 4) (field w 7 5) (ShiftType.ofCode (field w 5 2)) (field w 0 4)⟩,
  -- RSB cccc0000011Snnnnddddssss0tt1mmmm
  ⟨0x0FE00090, 0x00600010, [condF], 0x00000000, 0x00000000, [],
    fun w => .rsbReg (Cond.ofCode (field w 28 4)) (bitAt w 20) (field w 16 4) (field w 12 4) (field w 8 4) (ShiftType.ofCode (field w 5 2)) (field w 0 4)⟩,
  -- RSB cccc0010011Snnnnddddrrrriiiiiiii
  ⟨0x0FE00000, 0x02600000, [condF], 0x00000000, 0x00000000, [],
    fun w => .rsbImm (Cond.ofCode (field w 28 4)) (bitAt w 20) (field w 16 4) (field w 12 4) (field w 8 4) (field w 0 8)⟩,
  -- ADD cccc0000100Snnnnddddaaaaatt0mmmm
  ⟨0x0FE00010, 0x00800000, [condF], 0x00000000, 0x00000000, [],
    fun w => .addShift (Cond.ofCode (field w 28 4)) (bitAt w 20) (field w 16 4) (field w 12 4) (field w 7 5) (ShiftType.ofCode (field w 5 2)) (field w 0 4)⟩,
  -- ADD cccc0000100Snnnnddddssss0tt1mmmm
  ⟨0x0FE00090, 0x00800010, [condF], 0x00000000, 0x00000000, [],
    fun w => .addReg (Cond.ofCode (field w 28 4)) (bitAt w 20) (field w 16 4) (field w 12 4) (field w 8 4) (ShiftType.ofCode (field w 5 2)) (field w 0 4)⟩,
  -- ADD cccc0010100Snnnnddddrrrriiiiiiii
  ⟨0x0FE00000, 0x02800000, [condF], 0x00000000, 0x00000000, [],
    fun w => .addImm (Cond.ofCode (field w 28 4)) (bitAt w 20) (field w 16 4) (field w 12 4) (field w 8 4) (field w 0 8)⟩,
  -- ADC cccc0000101Snnnnddddaaaaatt0mmmm
  ⟨0x0FE00010, 0x00A00000, [condF], 0x00000000, 0x00000000, [],
    fun w => .adcShift (Cond.ofCode (field w 28 4)) (bitAt w 20) (field w 16 4) (field w 12 4) (field w 7 5) (ShiftType.ofCode (field w 5 2)) (field w 0 4)⟩,
  -- ADC cccc0000101Snnnnddddssss0tt1mmmm
  ⟨0x0FE00090, 0x00A00010, [condF], 0x00000000, 0x00000000, [],
    fun w => .adcReg (Cond.ofCode (field w 28 4)) (bitAt w 20) (field w 16 4) (field w 12 4) (field w 8 4) (ShiftType.ofCode (field w 5 2)) (field w 0 4)⟩,
  -- ADC cccc0010101Snnnnddddrrrriiiiiiii
  ⟨0x0FE00000, 0x02A00000, [condF], 0x00000000, 0x00000000, [],
    fun w => .adcImm (Cond.ofCode (field w 28 4)) (bitAt w 20) (field w 16 4) (field w 12 4) (field w 8 4) (field w 0 8)⟩,
  -- SBC cccc0000110Snnnnddddaaaaatt0mmmm
  ⟨0x0FE00010, 0x00C00000, [condF], 0x00000000, 0x00000000, [],
    fun w => .sbcShift (Cond.ofCode (field w 28 4)) (bitAt w 20) (field w 16 4) (field w 12 4) (field w 7 5) (ShiftType.ofCode (field w 5 2)) (field w 0 4)⟩,
  -- SBC cccc0000110Snnnnddddssss0tt1mmmm
  ⟨0x0FE00090, 0x00C00010, [condF], 0x00000000, 0x00000000, [],
    fun w => .sbcReg (Cond.ofCode (field w 28 4)) (bitAt w 20) (field w 16 4) (field w 12 4) (field w 8 4) (ShiftType.ofCode (field w 5 2)) (field w 0 4)⟩,
  -- SBC cccc0010110Snnnnddddrrrriiiiiiii
  ⟨0x0FE00000, 0x02C00000, [condF], 0x00000000, 0x00000000, [],
    fun w => .sbcImm (Cond.ofCode (field w 28 4)) (bitAt w 20) (field w 16 4) (field w 12 4) (field w 8 4) (field w 0 8)⟩,
  -- RSC cccc0000111Snnnnddddaaaaatt0mmmm
  ⟨0x0FE00010, 0x00E00000, [condF], 0x00000000, 0x00000000, [],
    fun w => .rscShift (Cond.ofCode (field w 28 4)) (bitAt w 20) (field w 16 4) (field w 12 4) (field w 7 5) (ShiftType.ofCode (field w 5 2)) (field w 0 4)⟩,
  -- RSC cccc0000111Snnnnddddssss0tt1mmmm
  ⟨0x0FE00090, 0x00E00010, [condF], 0x00000000, 0x00000000, [],
    fun w => .rscReg (Cond.ofCode (field w 28 4)) (bitAt w 20) (field w 16 4) (field w 12 4) (field w 8 4) (ShiftType.ofCode (field w 5 2)) (field w 0 4)⟩,
  -- RSC cccc0010111Snnnnddddrrrriiiiiiii
  ⟨0x0FE00000, 0x02E00000, [condF], 0x00000000, 0x00000000, [],
    fun w => .rscImm (Cond.ofCode (field w 28 4)) (bitAt w 20) (field w 16 4) (field w 12 4) (field w 8 4) (field w 0 8)⟩]

/-- The rows of TST to CMN. -/
def rowsTest : List Row := [
  -- TST cccc00010001nnnnzzzzaaaaatt0mmmm
  ⟨0x0FF00010, 0x01100000, [condF], 0x0000F000, 0x00000000, [],
    fun w => .tstShift (Cond.ofCode (field w 28 4)) (field w 16 4) (field w 7 5) (ShiftType.ofCode (field w 5 2)) (field w 0 4)⟩,
  -- TST cccc00010001nnnnzzzzssss0tt1mmmm
  ⟨0x0FF00090, 0x01100010, [condF], 0x0000F000, 0x00000000, [],
    fun w => .tstReg (Cond.ofCode (field w 28 4)) (field w 16 4) (field w 8 4) (ShiftType.ofCode (field w 5 2)) (field w 0 4)⟩,
  -- TST cccc00110001nnnnzzzzrrrriiiiiiii
  ⟨0x0FF00000, 0x03100000, [condF], 0x0000F000, 0x00000000, [],
    fun w => .tstImm (Cond.ofCode (field w 28 4)) (field w 16 4) (field w 8 4) (field w 0 8)⟩,
  -- TEQ cccc00010011nnnnzzzzaaaaatt0mmmm
  ⟨0x0FF00010, 0x01300000, [condF], 0x0000F000, 0x00000000, [],
    fun w => .teqShift (Cond.ofCode (field w 28 4)) (field w 16 4) (field w 7 5) (ShiftType.ofCode (field w 5 2)) (field w 0 4)⟩,
  -- TEQ cccc00010011nnnnzzzzssss0tt1mmmm
  ⟨0x0FF00090, 0x01300010, [condF], 0x0000F000, 0x00000000, [],
    fun w => .teqReg (Cond.ofCode (field w 28 4)) (field w 16 4) (field w 8 4) (ShiftType.ofCode (field w 5 2)) (field w 0 4)⟩,
  -- TEQ cccc00110011nnnnzzzzrrrriiiiiiii
  ⟨0x0FF00000, 0x03300000, [condF], 0x0000F000, 0x00000000, [],
    fun w => .teqImm (Cond.ofCode (field w 28 4)) (field w 16 4) (field w 8 4) (field w 0 8)⟩,
  -- CMP cccc00010101nnnnzzzzaaaaatt0mmmm
  ⟨0x0FF00010, 0x01500000, [condF], 0x0000F000, 0x00000000, [],
    fun w => .cmpShift (Cond.ofCode (field w 28 4)) (field w 16 4) (field w 7 5) (ShiftType.ofCode (field w 5 2)) (field w 0 4)⟩,
  -- CMP cccc00010101nnnnzzzzssss0tt1mmmm
  ⟨0x0FF00090, 0x01500010, [condF], 0x0000F000, 0x00000000, [],
    fun w => .cmpReg (Cond.ofCode (field w 28 4)) (field w 16 4) (field w 8 4) (ShiftType.ofCode (field w 5 2)) (field w 0 4)⟩,
  -- CMP cccc00110101nnnnzzzzrrrriiiiiiii
  ⟨0x0FF00000, 0x03500000, [condF], 0x0000F000, 0x00000000, [],
    fun w => .cmpImm (Cond.ofCode (field w 28 4)) (field w 16 4) (field w 8 4) (field w 0 8)⟩,
  -- CMN cccc00010111nnnnzzzzaaaaatt0mmmm
  ⟨0x0FF00010, 0x01700000, [condF], 0x0000F000, 0x00000000, [],
    fun w => .cmnShift (Cond.ofCode (field w 28 4)) (field w 16 4) (field w 7 5) (ShiftType.ofCode (field w 5 2)) (field w 0 4)⟩,
  -- CMN cccc00010111nnnnzzzzssss0tt1mmmm
  ⟨0x0FF00090, 0x01700010, [condF], 0x0000F000, 0x00000000, [],
    fun w => .cmnReg (Cond.ofCode (field w 28 4)) (field w 16 4) (field w 8 4) (ShiftType.ofCode (field w 5 2)) (field w 0 4)⟩,
  -- CMN cccc00110111nnnnzzzzrrrriiiiiiii
  ⟨0x0FF00000, 0x03700000, [condF], 0x0000F000, 0x00000000, [],
    fun w => .cmnImm (Cond.ofCode (field w 28 4)) (field w 16 4) (field w 8 4) (field w 0 8)⟩]

/-- The rows of ORR to MVN. -/
def rowsMove : List Row := [
  -- ORR cccc0001100Snnnnddddaaaaatt0mmmm
  ⟨0x0FE00010, 0x01800000, [condF], 0x00000000, 0x00000000, [],
    fun w => .orrShift (Cond.ofCode (field w 28 4)) (bitAt w 20) (field w 16 4) (field w 12 4) (field w 7 5) (ShiftType.ofCode (field w 5 2)) (field w 0 4)⟩,
  -- ORR cccc0001100Snnnnddddssss0tt1mmmm
  ⟨0x0FE00090, 0x01800010, [condF], 0x00000000, 0x00000000, [],
    fun w => .orrReg (Cond.ofCode (field w 28 4)) (bitAt w 20) (field w 16 4) (field w 12 4) (field w 8 4) (ShiftType.ofCode (field w 5 2)) (field w 0 4)⟩,
  -- ORR cccc0011100Snnnnddddrrrriiiiiiii
  ⟨0x0FE00000, 0x03800000, [condF], 0x00000000, 0x00000000, [],
    fun w => .orrImm (Cond.ofCode (field w 28 4)) (bitAt w 20) (field w 16 4) (field w 12 4) (field w 8 4) (field w 0 8)⟩,
  -- MOV cccc0001101Szzzzddddaaaaatt0mmmm
  ⟨0x0FE00010, 0x01A00000, [condF], 0x000F0000, 0x00000000, [],
    fun w => .movShift (Cond.ofCode (field w 28 4)) (bitAt w 20) (field w 12 4) (field w 7 5) (ShiftType.ofCode (field w 5 2)) (field w 0 4)⟩,
  -- MOV cccc0001101Szzzzddddssss0tt1mmmm
  ⟨0x0FE00090, 0x01A00010, [condF], 0x000F0000, 0x00000000, [],
    fun w => .movReg (Cond.ofCode (field w 28 4)) (bitAt w 20) (field w 12 4) (field w 8 4) (ShiftType.ofCode (field w 5 2)) (field w 0 4)⟩,
  -- MOV cccc0011101Szzzzddddrrrriiiiiiii
  ⟨0x0FE00000, 0x03A00000, [condF], 0x000F0000, 0x00000000, [],
    fun w => .movImm (Cond.ofCode (field w 28 4)) (bitAt w 20) (field w 12 4) (field w 8 4) (field w 0 8)⟩,
  -- BIC cccc0001110Snnnnddddaaaaatt0mmmm
  ⟨0x0FE00010, 0x01C00000, [condF], 0x00000000, 0x00000000, [],
    fun w => .bicShift (Cond.ofCode (field w 28 4)) (bitAt w 20) (field w 16 4) (field w 12 4) (field w 7 5) (ShiftType.ofCode (field w 5 2)) (field w 0 4)⟩,
  -- BIC cccc0001110Snnnnddddssss0tt1mmmm
  ⟨0x0FE00090, 0x01C00010, [condF], 0x00000000, 0x00000000, [],
    fun w => .bicReg (Cond.ofCode (field w 28 4)) (bitAt w 20) (field w 16 4) (field w 12 4) (field w 8 4) (ShiftType.ofCode (field w 5 2)) (field w 0 4)⟩,
  -- BIC cccc0011110Snnnnddddrrrriiiiiiii
  ⟨0x0FE00000, 0x03C00000, [condF], 0x00000000, 0x00000000, [],
    fun w => .bicImm (Cond.ofCode (field w 28 4)) (bitAt w 20) (field w 16 4) (field w 12 4) (field w 8 4) (field w 0 8)⟩,
  -- MVN cccc0001111Szzzzddddaaaaatt0mmmm
  ⟨0x0FE00010, 0x01E00000, [condF], 0x000F0000, 0x00000000, [],
    fun w => .mvnShift (Cond.ofCode (field w 28 4)) (bitAt w 20) (field w 12 4) (field w 7 5) (ShiftType.ofCode (field w 5 2)) (field w 0 4)⟩,
  -- MVN cccc0001111Szzzzddddssss0tt1mmmm
  ⟨0x0FE00090, 0x01E00010, [condF], 0x000F0000, 0x00000000, [],
    fun w => .mvnReg (Cond.ofCode (field w 28 4)) (bitAt w 20) (field w 12 4) (field w 8 4) (ShiftType.ofCode (field w 5 2)) (field w 0 4)⟩,
  -- MVN cccc0011111Szzzzddddrrrriiiiiiii
  ⟨0x0FE00000, 0x03E00000, [condF], 0x000F0000, 0x00000000, [],
    fun w => .mvnImm (Cond.ofCode (field w 28 4)) (bitAt w 20) (field w 12 4) (field w 8 4) (field w 0 8)⟩]

/-- The rows of the multiplies. -/
def rowsMultiply : List Row := [
  -- MUL cccc0000000Sddddzzzzssss1001mmmm
  ⟨0x0FE000F0, 0x00000090, [condF], 0x0000F000, 0x00000000, [],
    fun w => .mul (Cond.ofCode (field w 28 4)) (bitAt w 20) (field w 16 4) (field w 8 4) (field w 0 4)⟩,
  -- MLA cccc0000001Sddddnnnnssss1001mmmm
  ⟨0x0FE000F0, 0x00200090, [condF], 0x00000000, 0x00000000, [],
    fun w => .mla (Cond.ofCode (field w 28 4)) (bitAt w 20) (field w 16 4) (field w 12 4) (field w 8 4) (field w 0 4)⟩,
  -- UMAAL cccc00000100hhhhllllssss1001mmmm
  ⟨0x0FF000F0, 0x00400090, [condF], 0x00000000, 0x00000000, [],
    fun w => .umaal (Cond.ofCode (field w 28 4)) (field w 16 4) (field w 12 4) (field w 8 4) (field w 0 4)⟩,
  -- UMULL cccc0000100Shhhhllllssss1001mmmm
  ⟨0x0FE000F0, 0x00800090, [condF], 0x00000000, 0x00000000, [],
    fun w => .umull (Cond.ofCode (field w 28 4)) (bitAt w 20) (field w 16 4) (field w 12 4) (field w 8 4) (field w 0 4)⟩,
  -- UMLAL cccc0000101Shhhhllllssss1001mmmm
  ⟨0x0FE000F0, 0x00A00090, [condF], 0x00000000, 0x00000000, [],
    fun w => .umlal (Cond.ofCode (field w 28 4)) (bitAt w 20) (field w 16 4) (field w 12 4) (field w 8 4) (field w 0 4)⟩,
  -- SMULL cccc0000110Shhhhllllssss1001mmmm
  ⟨0x0FE000F0, 0x00C00090, [condF], 0x00000000, 0x00000000, [],
    fun w => .smull (Cond.ofCode (field w 28 4)) (bitAt w 20) (field w 16 4) (field w 12 4) (field w 8 4) (field w 0 4)⟩,
  -- SMLAL cccc0000111Shhhhllllssss1001mmmm
  ⟨0x0FE000F0, 0x00E00090, [condF], 0x00000000, 0x00000000, [],
    fun w => .smlal (Cond.ofCode (field w 28 4)) (bitAt w 20) (field w 16 4) (field w 12 4) (field w 8 4) (field w 0 4)⟩,
  -- SMLA<x><y> cccc00010000ddddnnnnssss1yx0mmmm
  ⟨0x0FF00090, 0x01000080, [condF], 0x00000000, 0x00000000, [],
    fun w => .smlaXY (Cond.ofCode (field w 28 4)) (field w 16 4) (field w 12 4) (field w 8 4) (bitAt w 6) (bitAt w 5) (field w 0 4)⟩,
  -- SMLAW<y> cccc00010010ddddnnnnssss1y00mmmm
  ⟨0x0FF000B0, 0x01200080, [condF], 0x00000000, 0x00000000, [],
    fun w => .smlawY (Cond.ofCode (field w 28 4)) (field w 16 4) (field w 12 4) (field w 8 4) (bitAt w 6) (field w 0 4)⟩,
  -- SMULW<y> cccc00010010ddddzzzzssss1y10mmmm
  ⟨0x0FF000B0, 0x012000A0, [condF], 0x0000F000, 0x00000000, [],
    fun w => .smulwY (Cond.ofCode (field w 28 4)) (field w 16 4) (field w 8 4) (bitAt w 6) (field w 0 4)⟩,
  -- SMLAL<x><y> cccc00010100hhhhllllssss1yx0mmmm
  ⟨0x0FF00090, 0x01400080, [condF], 0x00000000, 0x00000000, [],
    fun w => .smlalXY (Cond.ofCode (field w 28 4)) (field w 16 4) (field w 12 4) (field w 8 4) (bitAt w 6) (bitAt w 5) (field w 0 4)⟩,
  -- SMUL<x><y> cccc00010110ddddzzzzssss1yx0mmmm
  ⟨0x0FF00090, 0x01600080, [condF], 0x0000F000, 0x00000000, [],
    fun w => .smulXY (Cond.ofCode (field w 28 4)) (field w 16 4) (field w 8 4) (bitAt w 6) (bitAt w 5) (field w 0 4)⟩,
  -- SMUAD cccc01110000dddd1111ssss00X1mmmm
  ⟨0x0FF0F0D0, 0x0700F010, [condF], 0x00000000, 0x00000000, [],
    fun w => .smuad (Cond.ofCode (field w 28 4)) (field w 16 4) (field w 8 4) (bitAt w 5) (field w 0 4)⟩,
  -- SMUSD cccc01110000dddd1111ssss01X1mmmm
  ⟨0x0FF0F0D0, 0x0700F050, [condF], 0x00000000, 0x00000000, [],
    fun w => .smusd (Cond.ofCode (field w 28 4)) (field w 16 4) (field w 8 4) (bitAt w 5) (field w 0 4)⟩,
  -- SMLAD cccc01110000ddddnnnnssss00X1mmmm
  ⟨0x0FF000D0, 0x07000010, [condF, field12Ones], 0x00000000, 0x00000000, [],
    fun w => .smlad (Cond.ofCode (field w 28 4)) (field w 16 4) (field w 12 4) (field w 8 4) (bitAt w 5) (field w 0 4)⟩,
  -- SMLSD cccc01110000ddddnnnnssss01X1mmmm
  ⟨0x0FF000D0, 0x07000050, [condF, field12Ones], 0x00000000, 0x00000000, [],
    fun w => .smlsd (Cond.ofCode (field w 28 4)) (field w 16 4) (field w 12 4) (field w 8 4) (bitAt w 5) (field w 0 4)⟩,
  -- SMLALD cccc01110100hhhhllllssss00X1mmmm
  ⟨0x0FF000D0, 0x07400010, [condF], 0x00000000, 0x00000000, [],
    fun w => .smlald (Cond.ofCode (field w 28 4)) (field w 16 4) (field w 12 4) (field w 8 4) (bitAt w 5) (field w 0 4)⟩,
  -- SMLSLD cccc01110100hhhhllllssss01X1mmmm
  ⟨0x0FF000D0, 0x07400050, [condF], 0x00000000, 0x00000000, [],
    fun w => .smlsld (Cond.ofCode (field w 28 4)) (field w 16 4) (field w 12 4) (field w 8 4) (bitAt w 5) (field w 0 4)⟩,
  -- SMMUL cccc01110101dddd1111ssss00R1mmmm
  ⟨0x0FF0F0D0, 0x0750F010, [condF], 0x00000000, 0x00000000, [],
    fun w => .smmul (Cond.ofCode (field w 28 4)) (field w 16 4) (field w 8 4) (bitAt w 5) (field w 0 4)⟩,
  -- SMMLA cccc01110101ddddnnnnssss00R1mmmm
  ⟨0x0FF000D0, 0x07500010, [condF, field12Ones], 0x00000000, 0x00000000, [],
    fun w => .smmla (Cond.ofCode (field w 28 4)) (field w 16 4) (field w 12 4) (field w 8 4) (bitAt w 5) (field w 0 4)⟩,
  -- SMMLS cccc01110101ddddnnnnssss11R1mmmm
  ⟨0x0FF000D0, 0x075000D0, [condF], 0x00000000, 0x00000000, [],
    fun w => .smmls (Cond.ofCode (field w 28 4)) (field w 16 4) (field w 12 4) (field w 8 4) (bitAt w 5) (field w 0 4)⟩]

/-- The rows of the parallel instructions with prefix S, Q, SH. -/
def rowsParallelS : List Row := [
  -- SADD16 cccc01100001nnnnddddoooo0001mmmm
  ⟨0x0FF000F0, 0x06100010, [condF], 0x00000000, 0x00000F00, [],
    fun w => .sadd16 (Cond.ofCode (field w 28 4)) (field w 16 4) (field w 12 4) (field w 0 4)⟩,
  -- SADDSUBX cccc01100001nnnnddddoooo0011mmmm
  ⟨0x0FF000F0, 0x06100030, [condF], 0x00000000, 0x00000F00, [],
    fun w => .saddsubx (Cond.ofCode (field w 28 4)) (field w 16 4) (field w 12 4) (field w 0 4)⟩,
  -- SSUBADDX cccc01100001nnnnddddoooo0101mmmm
  ⟨0x0FF000F0, 0x06100050, [condF], 0x00000000, 0x00000F00, [],
    fun w => .ssubaddx (Cond.ofCode (field w 28 4)) (field w 16 4) (field w 12 4) (field w 0 4)⟩,
  -- SSUB16 cccc01100001nnnnddddoooo0111mmmm
  ⟨0x0FF000F0, 0x06100070, [condF], 0x00000000, 0x00000F00, [],
    fun w => .ssub16 (Cond.ofCode (field w 28 4)) (field w 16 4) (field w 12 4) (field w 0 4)⟩,
  -- SADD8 cccc01100001nnnnddddoooo1001mmmm
  ⟨0x0FF000F0, 0x06100090, [condF], 0x00000000, 0x00000F00, [],
    fun w => .sadd8 (Cond.ofCode (field w 28 4)) (field w 16 4) (field w 12 4) (field w 0 4)⟩,
  -- SSUB8 cccc01100001nnnnddddoooo1111mmmm
  ⟨0x0FF000F0, 0x061000F0, [condF], 0x00000000, 0x00000F00, [],
    fun w => .ssub8 (Cond.ofCode (field w 28 4)) (field w 16 4) (field w 12 4) (field w 0 4)⟩,
  -- QADD16 cccc01100010nnnnddddoooo0001mmmm
  ⟨0x0FF000F0, 0x06200010, [condF], 0x00000000, 0x00000F00, [],
    fun w => .qadd16 (Cond.ofCode (field w 28 4)) (field w 16 4) (field w 12 4) (field w 0 4)⟩,
  -- QADDSUBX cccc01100010nnnnddddoooo0011mmmm
  ⟨0x0FF000F0, 0x06200030, [condF], 0x00000000, 0x00000F00, [],
    fun w => .qaddsubx (Cond.ofCode (field w 28 4)) (field w 16 4) (field w 12 4) (field w 0 4)⟩,
  -- QSUBADDX cccc01100010nnnnddddoooo0101mmmm
  ⟨0x0FF000F0, 0x06200050, [condF], 0x00000000, 0x00000F00, [],
    fun w => .qsubaddx (Cond.ofCode (field w 28 4)) (field w 16 4) (field w 12 4) (field w 0 4)⟩,
  -- QSUB16 cccc01100010nnnnddddoooo0111mmmm
  ⟨0x0FF000F0, 0x06200070, [condF], 0x00000000, 0x00000F00, [],
    fun w => .qsub16 (Cond.ofCode (field w 28 4)) (field w 16 4) (field w 12 4) (field w 0 4)⟩,
  -- QADD8 cccc01100010nnnnddddoooo1001mmmm
  ⟨0x0FF000F0, 0x06200090, [condF], 0x00000000, 0x00000F00, [],
    fun w => .qadd8 (Cond.ofCode (field w 28 4)) (field w 16 4) (field w 12 4) (field w 0 4)⟩,
  -- QSUB8 cccc01100010nnnnddddoooo1111mmmm
  ⟨0x0FF000F0, 0x062000F0, [condF], 0x00000000, 0x00000F00, [],
    fun w => .qsub8 (Cond.ofCode (field w 28 4)) (field w 16 4) (field w 12 4) (field w 0 4)⟩,
  -- SHADD16 cccc01100011nnnnddddoooo0001mmmm
  ⟨0x0FF000F0, 0x06300010, [condF], 0x00000000, 0x00000F00, [],
    fun w => .shadd16 (Cond.ofCode (field w 28 4)) (field w 16 4) (field w 12 4) (field w 0 4)⟩,
  -- SHADDSUBX cccc01100011nnnnddddoooo0011mmmm
  ⟨0x0FF000F0, 0x06300030, [condF], 0x00000000, 0x00000F00, [],
    fun w => .shaddsubx (Cond.ofCode (field w 28 4)) (field w 16 4) (field w 12 4) (field w 0 4)⟩,
  -- SHSUBADDX cccc01100011nnnnddddoooo0101mmmm
  ⟨0x0FF000F0, 0x06300050, [condF], 0x00000000, 0x00000F00, [],
    fun w => .shsubaddx (Cond.ofCode (field w 28 4)) (field w 16 4) (field w 12 4) (field w 0 4)⟩,
  -- SHSUB16 cccc01100011nnnnddddoooo0111mmmm
  ⟨0x0FF000F0, 0x06300070, [condF], 0x00000000, 0x00000F00, [],
    fun w => .shsub16 (Cond.ofCode (field w 28 4)) (field w 16 4) (field w 12 4) (field w 0 4)⟩,
  -- SHADD8 cccc01100011nnnnddddoooo1001mmmm
  ⟨0x0FF000F0, 0x06300090, [condF], 0x00000000, 0x00000F00, [],
    fun w => .shadd8 (Cond.ofCode (field w 28 4)) (field w 16 4) (field w 12 4) (field w 0 4)⟩,
  -- SHSUB8 cccc01100011nnnnddddoooo1111mmmm
  ⟨0x0FF000F0, 0x063000F0, [condF], 0x00000000, 0x00000F00, [],
    fun w => .shsub8 (Cond.ofCode (field w 28 4)) (field w 16 4) (field w 12 4) (field w 0 4)⟩]

/-- The rows of the parallel instructions with prefix U, UQ, UH. -/
def rowsParallelU : List Row := [
  -- UADD16 cccc01100101nnnnddddoooo0001mmmm
  ⟨0x0FF000F0, 0x06500010, [condF], 0x00000000, 0x00000F00, [],
    fun w => .uadd16 (Cond.ofCode (field w 28 4)) (field w 16 4) (field w 12 4) (field w 0 4)⟩,
  -- UADDSUBX cccc01100101nnnnddddoooo0011mmmm
  ⟨0x0FF000F0, 0x06500030, [condF], 0x00000000, 0x00000F00, [],
    fun w => .uaddsubx (Cond.ofCode (field w 28 4)) (field w 16 4) (field w 12 4) (field w 0 4)⟩,
  -- USUBADDX cccc01100101nnnnddddoooo0101mmmm
  ⟨0x0FF000F0, 0x06500050, [condF], 0x00000000, 0x00000F00, [],
    fun w => .usubaddx (Cond.ofCode (field w 28 4)) (field w 16 4) (field w 12 4) (field w 0 4)⟩,
  -- USUB16 cccc01100101nnnnddddoooo0111mmmm
  ⟨0x0FF000F0, 0x06500070, [condF], 0x00000000, 0x00000F00, [],
    fun w => .usub16 (Cond.ofCode (field w 28 4)) (field w 16 4) (field w 12 4) (field w 0 4)⟩,
  -- UADD8 cccc01100101nnnnddddoooo1001mmmm
  ⟨0x0FF000F0, 0x06500090, [condF], 0x00000000, 0x00000F00, [],
    fun w => .uadd8 (Cond.ofCode (field w 28 4)) (field w 16 4) (field w 12 4) (field w 0 4)⟩,
  -- USUB8 cccc01100101nnnnddddoooo1111mmmm
  ⟨0x0FF000F0, 0x065000F0, [condF], 0x00000000, 0x00000F00, [],
    fun w => .usub8 (Cond.ofCode (field w 28 4)) (field w 16 4) (field w 12 4) (field w 0 4)⟩,
  -- UQADD16 cccc01100110nnnnddddoooo0001mmmm
  ⟨0x0FF000F0, 0x06600010, [condF], 0x00000000, 0x00000F00, [],
    fun w => .uqadd16 (Cond.ofCode (field w 28 4)) (field w 16 4) (field w 12 4) (field w 0 4)⟩,
  -- UQADDSUBX cccc01100110nnnnddddoooo0011mmmm
  ⟨0x0FF000F0, 0x06600030, [condF], 0x00000000, 0x00000F00, [],
    fun w => .uqaddsubx (Cond.ofCode (field w 28 4)) (field w 16 4) (field w 12 4) (field w 0 4)⟩,
  -- UQSUBADDX cccc01100110nnnnddddoooo0101mmmm
  ⟨0x0FF000F0, 0x06600050, [condF], 0x00000000, 0x00000F00, [],
    fun w => .uqsubaddx (Cond.ofCode (field w 28 4)) (field w 16 4) (field w 12 4) (field w 0 4)⟩,
  -- UQSUB16 cccc01100110nnnnddddoooo0111mmmm
  ⟨0x0FF000F0, 0x06600070, [condF], 0x00000000, 0x00000F00, [],
    fun w => .uqsub16 (Cond.ofCode (field w 28 4)) (field w 16 4) (field w 12 4) (field w 0 4)⟩,
  -- UQADD8 cccc01100110nnnnddddoooo1001mmmm
  ⟨0x0FF000F0, 0x06600090, [condF], 0x00000000, 0x00000F00, [],
    fun w => .uqadd8 (Cond.ofCode (field w 28 4)) (field w 16 4) (field w 12 4) (field w 0 4)⟩,
  -- UQSUB8 cccc01100110nnnnddddoooo1111mmmm
  ⟨0x0FF000F0, 0x066000F0, [condF], 0x00000000, 0x00000F00, [],
    fun w => .uqsub8 (Cond.ofCode (field w 28 4)) (field w 16 4) (field w 12 4) (field w 0 4)⟩,
  -- UHADD16 cccc01100111nnnnddddoooo0001mmmm
  ⟨0x0FF000F0, 0x06700010, [condF], 0x00000000, 0x00000F00, [],
    fun w => .uhadd16 (Cond.ofCode (field w 28 4)) (field w 16 4) (field w 12 4) (field w 0 4)⟩,
  -- UHADDSUBX cccc01100111nnnnddddoooo0011mmmm
  ⟨0x0FF000F0, 0x06700030, [condF], 0x00000000, 0x00000F00, [],
    fun w => .uhaddsubx (Cond.ofCode (field w 28 4)) (field w 16 4) (field w 12 4) (field w 0 4)⟩,
  -- UHSUBADDX cccc01100111nnnnddddoooo0101mmmm
  ⟨0x0FF000F0, 0x06700050, [condF], 0x00000000, 0x00000F00, [],
    fun w => .uhsubaddx (Cond.ofCode (field w 28 4)) (field w 16 4) (field w 12 4) (field w 0 4)⟩,
  -- UHSUB16 cccc01100111nnnnddddoooo0111mmmm
  ⟨0x0FF000F0, 0x06700070, [condF], 0x00000000, 0x00000F00, [],
    fun w => .uhsub16 (Cond.ofCode (field w 28 4)) (field w 16 4) (field w 12 4) (field w 0 4)⟩,
  -- UHADD8 cccc01100111nnnnddddoooo1001mmmm
  ⟨0x0FF000F0, 0x06700090, [condF], 0x00000000, 0x00000F00, [],
    fun w => .uhadd8 (Cond.ofCode (field w 28 4)) (field w 16 4) (field w 12 4) (field w 0 4)⟩,
  -- UHSUB8 cccc01100111nnnnddddoooo1111mmmm
  ⟨0x0FF000F0, 0x067000F0, [condF], 0x00000000, 0x00000F00, [],
    fun w => .uhsub8 (Cond.ofCode (field w 28 4)) (field w 16 4) (field w 12 4) (field w 0 4)⟩]

/-- The rows of the extend instructions. -/
def rowsExtend : List Row := [
  -- SXTAB16 cccc01101000nnnnddddrrzz0111mmmm
  ⟨0x0FF000F0, 0x06800070, [condF, field16Ones], 0x00000300, 0x00000000, [],
    fun w => .sxtab16 (Cond.ofCode (field w 28 4)) (field w 16 4) (field w 12 4) (field w 10 2) (field w 0 4)⟩,
  -- SXTB16 cccc011010001111ddddrrzz0111mmmm
  ⟨0x0FFF00F0, 0x068F0070, [condF], 0x00000300, 0x00000000, [],
    fun w => .sxtb16 (Cond.ofCode (field w 28 4)) (field w 12 4) (field w 10 2) (field w 0 4)⟩,
  -- SXTAB cccc01101010nnnnddddrrzz0111mmmm
  ⟨0x0FF000F0, 0x06A00070, [condF, field16Ones], 0x00000300, 0x00000000, [],
    fun w => .sxtab (Cond.ofCode (field w 28 4)) (field w 16 4) (field w 12 4) (field w 10 2) (field w 0 4)⟩,
  -- SXTB cccc011010101111ddddrrzz0111mmmm
  ⟨0x0FFF00F0, 0x06AF0070, [condF], 0x00000300, 0x00000000, [],
    fun w => .sxtb (Cond.ofCode (field w 28 4)) (field w 12 4) (field w 10 2) (field w 0 4)⟩,
  -- SXTAH cccc01101011nnnnddddrrzz0111mmmm
  ⟨0x0FF000F0, 0x06B00070, [condF, field16Ones], 0x00000300, 0x00000000, [],
    fun w => .sxtah (Cond.ofCode (field w 28 4)) (field w 16 4) (field w 12 4) (field w 10 2) (field w 0 4)⟩,
  -- SXTH cccc011010111111ddddrrzz0111mmmm
  ⟨0x0FFF00F0, 0x06BF0070, [condF], 0x00000300, 0x00000000, [],
    fun w => .sxth (Cond.ofCode (field w 28 4)) (field w 12 4) (field w 10 2) (field w 0 4)⟩,
  -- UXTAB16 cccc01101100nnnnddddrrzz0111mmmm
  ⟨0x0FF000F0, 0x06C00070, [condF, field16Ones], 0x00000300, 0x00000000, [],
    fun w => .uxtab16 (Cond.ofCode (field w 28 4)) (field w 16 4) (field w 12 4) (field w 10 2) (field w 0 4)⟩,
  -- UXTB16 cccc011011001111ddddrrzz0111mmmm
  ⟨0x0FFF00F0, 0x06CF0070, [condF], 0x00000300, 0x00000000, [],
    fun w => .uxtb16 (Cond.ofCode (field w 28 4)) (field w 12 4) (field w 10 2) (field w 0 4)⟩,
  -- UXTAB cccc01101110nnnnddddrrzz0111mmmm
  ⟨0x0FF000F0, 0x06E00070, [condF, field16Ones], 0x00000300, 0x00000000, [],
    fun w => .uxtab (Cond.ofCode (field w 28 4)) (field w 16 4) (field w 12 4) (field w 10 2) (field w 0 4)⟩,
  -- UXTB cccc011011101111ddddrrzz0111mmmm
  ⟨0x0FFF00F0, 0x06EF0070, [condF], 0x00000300, 0x00000000, [],
    fun w => .uxtb (Cond.ofCode (field w 28 4)) (field w 12 4) (field w 10 2) (field w 0 4)⟩,
  -- UXTAH cccc01101111nnnnddddrrzz0111mmmm
  ⟨0x0FF000F0, 0x06F00070, [condF, field16Ones], 0x00000300, 0x00000000, [],
    fun w => .uxtah (Cond.ofCode (field w 28 4)) (field w 16 4) (field w 12 4) (field w 10 2) (field w 0 4)⟩,
  -- UXTH cccc011011111111ddddrrzz0111mmmm
  ⟨0x0FFF00F0, 0x06FF0070, [condF], 0x00000300, 0x00000000, [],
    fun w => .uxth (Cond.ofCode (field w 28 4)) (field w 12 4) (field w 10 2) (field w 0 4)⟩]

/-- The rows of CLZ to QDSUB. -/
def rowsMisc : List Row := [
  -- CLZ cccc00010110ooooddddoooo0001mmmm
  ⟨0x0FF000F0, 0x01600010, [condF], 0x00000000, 0x000F0F00, [],
    fun w => .clz (Cond.ofCode (field w 28 4)) (field w 12 4) (field w 0 4)⟩,
  -- USAD8 cccc01111000dddd1111ssss0001mmmm
  ⟨0x0FF0F0F0, 0x0780F010, [condF], 0x00000000, 0x00000000, [],
    fun w => .usad8 (Cond.ofCode (field w 28 4)) (field w 16 4) (field w 8 4) (field w 0 4)⟩,
  -- USADA8 cccc01111000ddddnnnnssss0001mmmm
  ⟨0x0FF000F0, 0x07800010, [condF, field12Ones], 0x00000000, 0x00000000, [],
    fun w => .usada8 (Cond.ofCode (field w 28 4)) (field w 16 4) (field w 12 4) (field w 8 4) (field w 0 4)⟩,
  -- PKHBT cccc01101000nnnnddddaaaaa001mmmm
  ⟨0x0FF00070, 0x06800010, [condF], 0x00000000, 0x00000000, [],
    fun w => .pkhbt (Cond.ofCode (field w 28 4)) (field w 16 4) (field w 12 4) (field w 7 5) (field w 0 4)⟩,
  -- PKHTB cccc01101000nnnnddddaaaaa101mmmm
  ⟨0x0FF00070, 0x06800050, [condF], 0x00000000, 0x00000000, [],
    fun w => .pkhtb (Cond.ofCode (field w 28 4)) (field w 16 4) (field w 12 4) (field w 7 5) (field w 0 4)⟩,
  -- REV cccc01101011ooooddddoooo0011mmmm
  ⟨0x0FF000F0, 0x06B00030, [condF], 0x00000000, 0x000F0F00, [],
    fun w => .rev (Cond.ofCode (field w 28 4)) (field w 12 4) (field w 0 4)⟩,
  -- REV16 cccc01101011ooooddddoooo1011mmmm
  ⟨0x0FF000F0, 0x06B000B0, [condF], 0x00000000, 0x000F0F00, [],
    fun w => .rev16 (Cond.ofCode (field w 28 4)) (field w 12 4) (field w 0 4)⟩,
  -- REVSH cccc01101111ooooddddoooo1011mmmm
  ⟨0x0FF000F0, 0x06F000B0, [condF], 0x00000000, 0x000F0F00, [],
    fun w => .revsh (Cond.ofCode (field w 28 4)) (field w 12 4) (field w 0 4)⟩,
  -- SEL cccc01101000nnnnddddoooo1011mmmm
  ⟨0x0FF000F0, 0x068000B0, [condF], 0x00000000, 0x00000F00, [],
    fun w => .sel (Cond.ofCode (field w 28 4)) (field w 16 4) (field w 12 4) (field w 0 4)⟩,
  -- SSAT cccc0110101iiiiiddddaaaaat01mmmm
  ⟨0x0FE00030, 0x06A00010, [condF], 0x00000000, 0x00000000, [],
    fun w => .ssat (Cond.ofCode (field w 28 4)) (field w 16 5) (field w 12 4) (field w 7 5) (bitAt w 6) (field w 0 4)⟩,
  -- SSAT16 cccc01101010iiiiddddoooo0011mmmm
  ⟨0x0FF000F0, 0x06A00030, [condF], 0x00000000, 0x00000F00, [],
    fun w => .ssat16 (Cond.ofCode (field w 28 4)) (field w 16 4) (field w 12 4) (field w 0 4)⟩,
  -- USAT cccc0110111iiiiiddddaaaaat01mmmm
  ⟨0x0FE00030, 0x06E00010, [condF], 0x00000000, 0x00000000, [],
    fun w => .usat (Cond.ofCode (field w 28 4)) (field w 16 5) (field w 12 4) (field w 7 5) (bitAt w 6) (field w 0 4)⟩,
  -- USAT16 cccc01101110iiiiddddoooo0011mmmm
  ⟨0x0FF000F0, 0x06E00030, [condF], 0x00000000, 0x00000F00, [],
    fun w => .usat16 (Cond.ofCode (field w 28 4)) (field w 16 4) (field w 12 4) (field w 0 4)⟩,
  -- QADD cccc00010000nnnnddddzzzz0101mmmm
  ⟨0x0FF000F0, 0x01000050, [condF], 0x00000F00, 0x00000000, [],
    fun w => .qadd (Cond.ofCode (field w 28 4)) (field w 16 4) (field w 12 4) (field w 0 4)⟩,
  -- QSUB cccc00010010nnnnddddzzzz0101mmmm
  ⟨0x0FF000F0, 0x01200050, [condF], 0x00000F00, 0x00000000, [],
    fun w => .qsub (Cond.ofCode (field w 28 4)) (field w 16 4) (field w 12 4) (field w 0 4)⟩,
  -- QDADD cccc00010100nnnnddddzzzz0101mmmm
  ⟨0x0FF000F0, 0x01400050, [condF], 0x00000F00, 0x00000000, [],
    fun w => .qdadd (Cond.ofCode (field w 28 4)) (field w 16 4) (field w 12 4) (field w 0 4)⟩,
  -- QDSUB cccc00010110nnnnddddzzzz0101mmmm
  ⟨0x0FF000F0, 0x01600050, [condF], 0x00000F00, 0x00000000, [],
    fun w => .qdsub (Cond.ofCode (field w 28 4)) (field w 16 4) (field w 12 4) (field w 0 4)⟩]

/-- The rows of MRS to SETEND. -/
def rowsStatus : List Row := [
  -- MRS cccc00010R00ooooddddzzzz0000zzzz
  ⟨0x0FB000F0, 0x01000000, [condF], 0x00000F0F, 0x000F0000, [],
    fun w => .mrs (Cond.ofCode (field w 28 4)) (bitAt w 22) (field w 12 4)⟩,
  -- MSR cccc00110R10ffffoooorrrriiiiiiii
  ⟨0x0FB00000, 0x03200000, [condF], 0x00000000, 0x0000F000, [],
    fun w => .msrImm (Cond.ofCode (field w 28 4)) (bitAt w 22) (field w 16 4) (field w 8 4) (field w 0 8)⟩,
  -- MSR cccc00010R10ffffoooozzzz0000mmmm
  ⟨0x0FB000F0, 0x01200000, [condF], 0x00000F00, 0x0000F000, [],
    fun w => .msrReg (Cond.ofCode (field w 28 4)) (bitAt w 22) (field w 16 4) (field w 0 4)⟩,
  -- CPS 111100010000iiM0zzzzzzzAIF0mmmmm
  ⟨0xFFF10020, 0xF1000000, [], 0x0000FE00, 0x00000000, [],
    fun w => .cps (field w 18 2) (bitAt w 17) (bitAt w 8) (bitAt w 7) (bitAt w 6) (field w 0 5)⟩,
  -- SETEND 111100010000zzz1zzzzzzEzzz0zzzzz
  ⟨0xFFF10020, 0xF1010000, [], 0x000EFDDF, 0x00000000, [],
    fun w => .setend (bitAt w 9)⟩]

/-- The rows of the branches. -/
def rowsBranch : List Row := [
  -- B cccc1010iiiiiiiiiiiiiiiiiiiiiiii
  ⟨0x0F000000, 0x0A000000, [condF], 0x00000000, 0x00000000, [],
    fun w => .b (Cond.ofCode (field w 28 4)) (field w 0 24)⟩,
  -- BL cccc1011iiiiiiiiiiiiiiiiiiiiiiii
  ⟨0x0F000000, 0x0B000000, [condF], 0x00000000, 0x00000000, [],
    fun w => .bl (Cond.ofCode (field w 28 4)) (field w 0 24)⟩,
  -- BLX__1 1111101Hiiiiiiiiiiiiiiiiiiiiiiii
  ⟨0xFE000000, 0xFA000000, [], 0x00000000, 0x00000000, [],
    fun w => .blx1 (bitAt w 24) (field w 0 24)⟩,
  -- BLX__2 cccc00010010oooooooooooo0011mmmm
  ⟨0x0FF000F0, 0x01200030, [condF], 0x00000000, 0x000FFF00, [],
    fun w => .blx2 (Cond.ofCode (field w 28 4)) (field w 0 4)⟩,
  -- BX cccc00010010oooooooooooo0001mmmm
  ⟨0x0FF000F0, 0x01200010, [condF], 0x00000000, 0x000FFF00, [],
    fun w => .bx (Cond.ofCode (field w 28 4)) (field w 0 4)⟩,
  -- BXJ cccc00010010oooooooooooo0010mmmm
  ⟨0x0FF000F0, 0x01200020, [condF], 0x00000000, 0x000FFF00, [],
    fun w => .bxj (Cond.ofCode (field w 28 4)) (field w 0 4)⟩]

/-- The rows of LDR to STRBT. -/
def rowsWord : List Row := [
  -- LDR cccc010PU0W1nnnnddddiiiiiiiiiiii
  ⟨0x0E500000, 0x04100000, [condF, postW], 0x00000000, 0x00000000, [],
    fun w => .ldrImm (Cond.ofCode (field w 28 4)) (IndexMode.of (bitAt w 24) (bitAt w 21)) (bitAt w 23) (field w 16 4) (field w 12 4) (field w 0 12)⟩,
  -- LDR cccc011PU0W1nnnnddddaaaaatt0mmmm
  ⟨0x0E500010, 0x06100000, [condF, postW], 0x00000000, 0x00000000, [],
    fun w => .ldrReg (Cond.ofCode (field w 28 4)) (IndexMode.of (bitAt w 24) (bitAt w 21)) (bitAt w 23) (field w 16 4) (field w 12 4) (field w 7 5) (ShiftType.ofCode (field w 5 2)) (field w 0 4)⟩,
  -- LDRB cccc010PU1W1nnnnddddiiiiiiiiiiii
  ⟨0x0E500000, 0x04500000, [condF, postW], 0x00000000, 0x00000000, [],
    fun w => .ldrbImm (Cond.ofCode (field w 28 4)) (IndexMode.of (bitAt w 24) (bitAt w 21)) (bitAt w 23) (field w 16 4) (field w 12 4) (field w 0 12)⟩,
  -- LDRB cccc011PU1W1nnnnddddaaaaatt0mmmm
  ⟨0x0E500010, 0x06500000, [condF, postW], 0x00000000, 0x00000000, [],
    fun w => .ldrbReg (Cond.ofCode (field w 28 4)) (IndexMode.of (bitAt w 24) (bitAt w 21)) (bitAt w 23) (field w 16 4) (field w 12 4) (field w 7 5) (ShiftType.ofCode (field w 5 2)) (field w 0 4)⟩,
  -- STR cccc010PU0W0nnnnddddiiiiiiiiiiii
  ⟨0x0E500000, 0x04000000, [condF, postW], 0x00000000, 0x00000000, [],
    fun w => .strImm (Cond.ofCode (field w 28 4)) (IndexMode.of (bitAt w 24) (bitAt w 21)) (bitAt w 23) (field w 16 4) (field w 12 4) (field w 0 12)⟩,
  -- STR cccc011PU0W0nnnnddddaaaaatt0mmmm
  ⟨0x0E500010, 0x06000000, [condF, postW], 0x00000000, 0x00000000, [],
    fun w => .strReg (Cond.ofCode (field w 28 4)) (IndexMode.of (bitAt w 24) (bitAt w 21)) (bitAt w 23) (field w 16 4) (field w 12 4) (field w 7 5) (ShiftType.ofCode (field w 5 2)) (field w 0 4)⟩,
  -- STRB cccc010PU1W0nnnnddddiiiiiiiiiiii
  ⟨0x0E500000, 0x04400000, [condF, postW], 0x00000000, 0x00000000, [],
    fun w => .strbImm (Cond.ofCode (field w 28 4)) (IndexMode.of (bitAt w 24) (bitAt w 21)) (bitAt w 23) (field w 16 4) (field w 12 4) (field w 0 12)⟩,
  -- STRB cccc011PU1W0nnnnddddaaaaatt0mmmm
  ⟨0x0E500010, 0x06400000, [condF, postW], 0x00000000, 0x00000000, [],
    fun w => .strbReg (Cond.ofCode (field w 28 4)) (IndexMode.of (bitAt w 24) (bitAt w 21)) (bitAt w 23) (field w 16 4) (field w 12 4) (field w 7 5) (ShiftType.ofCode (field w 5 2)) (field w 0 4)⟩,
  -- LDRT cccc0100U011nnnnddddiiiiiiiiiiii
  ⟨0x0F700000, 0x04300000, [condF], 0x00000000, 0x00000000, [],
    fun w => .ldrtImm (Cond.ofCode (field w 28 4)) (bitAt w 23) (field w 16 4) (field w 12 4) (field w 0 12)⟩,
  -- LDRT cccc0110U011nnnnddddaaaaatt0mmmm
  ⟨0x0F700010, 0x06300000, [condF], 0x00000000, 0x00000000, [],
    fun w => .ldrtReg (Cond.ofCode (field w 28 4)) (bitAt w 23) (field w 16 4) (field w 12 4) (field w 7 5) (ShiftType.ofCode (field w 5 2)) (field w 0 4)⟩,
  -- LDRBT cccc0100U111nnnnddddiiiiiiiiiiii
  ⟨0x0F700000, 0x04700000, [condF], 0x00000000, 0x00000000, [],
    fun w => .ldrbtImm (Cond.ofCode (field w 28 4)) (bitAt w 23) (field w 16 4) (field w 12 4) (field w 0 12)⟩,
  -- LDRBT cccc0110U111nnnnddddaaaaatt0mmmm
  ⟨0x0F700010, 0x06700000, [condF], 0x00000000, 0x00000000, [],
    fun w => .ldrbtReg (Cond.ofCode (field w 28 4)) (bitAt w 23) (field w 16 4) (field w 12 4) (field w 7 5) (ShiftType.ofCode (field w 5 2)) (field w 0 4)⟩,
  -- STRT cccc0100U010nnnnddddiiiiiiiiiiii
  ⟨0x0F700000, 0x04200000, [condF], 0x00000000, 0x00000000, [],
    fun w => .strtImm (Cond.ofCode (field w 28 4)) (bitAt w 23) (field w 16 4) (field w 12 4) (field w 0 12)⟩,
  -- STRT cccc0110U010nnnnddddaaaaatt0mmmm
  ⟨0x0F700010, 0x06200000, [condF], 0x00000000, 0x00000000, [],
    fun w => .strtReg (Cond.ofCode (field w 28 4)) (bitAt w 23) (field w 16 4) (field w 12 4) (field w 7 5) (ShiftType.ofCode (field w 5 2)) (field w 0 4)⟩,
  -- STRBT cccc0100U110nnnnddddiiiiiiiiiiii
  ⟨0x0F700000, 0x04600000, [condF], 0x00000000, 0x00000000, [],
    fun w => .strbtImm (Cond.ofCode (field w 28 4)) (bitAt w 23) (field w 16 4) (field w 12 4) (field w 0 12)⟩,
  -- STRBT cccc0110U110nnnnddddaaaaatt0mmmm
  ⟨0x0F700010, 0x06600000, [condF], 0x00000000, 0x00000000, [],
    fun w => .strbtReg (Cond.ofCode (field w 28 4)) (bitAt w 23) (field w 16 4) (field w 12 4) (field w 7 5) (ShiftType.ofCode (field w 5 2)) (field w 0 4)⟩]

/-- The rows of STRH to LDRSH. A word of LDRD or STRD with an odd Rd that also has P = 0 and W = 1 (R430) or a wrong SBZ
field (R129) is UNPREDICTABLE, at decode; with an odd Rd alone it decodes, and its meaning takes the Undefined Instruction
exception (R139, R435). The spec gives no order of the two: DESIGN CHOICE (notes/assumptions/27.md), safe. -/
def rowsHalf : List Row := [
  -- STRH cccc000PU1W0nnnnddddHHHH1011LLLL
  ⟨0x0E5000F0, 0x004000B0, [condF], 0x00000000, 0x00000000, [postW],
    fun w => .strhImm (Cond.ofCode (field w 28 4)) (IndexMode.of (bitAt w 24) (bitAt w 21)) (bitAt w 23) (field w 16 4) (field w 12 4) (field w 8 4 ++ field w 0 4)⟩,
  -- STRH cccc000PU0W0nnnnddddzzzz1011mmmm
  ⟨0x0E5000F0, 0x000000B0, [condF], 0x00000F00, 0x00000000, [postW],
    fun w => .strhReg (Cond.ofCode (field w 28 4)) (IndexMode.of (bitAt w 24) (bitAt w 21)) (bitAt w 23) (field w 16 4) (field w 12 4) (field w 0 4)⟩,
  -- LDRD cccc000PU1W0nnnnddddHHHH1101LLLL
  ⟨0x0E5000F0, 0x004000D0, [condF], 0x00000000, 0x00000000, [postW],
    fun w => .ldrdImm (Cond.ofCode (field w 28 4)) (IndexMode.of (bitAt w 24) (bitAt w 21)) (bitAt w 23) (field w 16 4) (field w 12 4) (field w 8 4 ++ field w 0 4)⟩,
  -- LDRD cccc000PU0W0nnnnddddzzzz1101mmmm
  ⟨0x0E5000F0, 0x000000D0, [condF], 0x00000F00, 0x00000000, [postW],
    fun w => .ldrdReg (Cond.ofCode (field w 28 4)) (IndexMode.of (bitAt w 24) (bitAt w 21)) (bitAt w 23) (field w 16 4) (field w 12 4) (field w 0 4)⟩,
  -- STRD cccc000PU1W0nnnnddddHHHH1111LLLL
  ⟨0x0E5000F0, 0x004000F0, [condF], 0x00000000, 0x00000000, [postW],
    fun w => .strdImm (Cond.ofCode (field w 28 4)) (IndexMode.of (bitAt w 24) (bitAt w 21)) (bitAt w 23) (field w 16 4) (field w 12 4) (field w 8 4 ++ field w 0 4)⟩,
  -- STRD cccc000PU0W0nnnnddddzzzz1111mmmm
  ⟨0x0E5000F0, 0x000000F0, [condF], 0x00000F00, 0x00000000, [postW],
    fun w => .strdReg (Cond.ofCode (field w 28 4)) (IndexMode.of (bitAt w 24) (bitAt w 21)) (bitAt w 23) (field w 16 4) (field w 12 4) (field w 0 4)⟩,
  -- LDRH cccc000PU1W1nnnnddddHHHH1011LLLL
  ⟨0x0E5000F0, 0x005000B0, [condF], 0x00000000, 0x00000000, [postW],
    fun w => .ldrhImm (Cond.ofCode (field w 28 4)) (IndexMode.of (bitAt w 24) (bitAt w 21)) (bitAt w 23) (field w 16 4) (field w 12 4) (field w 8 4 ++ field w 0 4)⟩,
  -- LDRH cccc000PU0W1nnnnddddzzzz1011mmmm
  ⟨0x0E5000F0, 0x001000B0, [condF], 0x00000F00, 0x00000000, [postW],
    fun w => .ldrhReg (Cond.ofCode (field w 28 4)) (IndexMode.of (bitAt w 24) (bitAt w 21)) (bitAt w 23) (field w 16 4) (field w 12 4) (field w 0 4)⟩,
  -- LDRSB cccc000PU1W1nnnnddddHHHH1101LLLL
  ⟨0x0E5000F0, 0x005000D0, [condF], 0x00000000, 0x00000000, [postW],
    fun w => .ldrsbImm (Cond.ofCode (field w 28 4)) (IndexMode.of (bitAt w 24) (bitAt w 21)) (bitAt w 23) (field w 16 4) (field w 12 4) (field w 8 4 ++ field w 0 4)⟩,
  -- LDRSB cccc000PU0W1nnnnddddzzzz1101mmmm
  ⟨0x0E5000F0, 0x001000D0, [condF], 0x00000F00, 0x00000000, [postW],
    fun w => .ldrsbReg (Cond.ofCode (field w 28 4)) (IndexMode.of (bitAt w 24) (bitAt w 21)) (bitAt w 23) (field w 16 4) (field w 12 4) (field w 0 4)⟩,
  -- LDRSH cccc000PU1W1nnnnddddHHHH1111LLLL
  ⟨0x0E5000F0, 0x005000F0, [condF], 0x00000000, 0x00000000, [postW],
    fun w => .ldrshImm (Cond.ofCode (field w 28 4)) (IndexMode.of (bitAt w 24) (bitAt w 21)) (bitAt w 23) (field w 16 4) (field w 12 4) (field w 8 4 ++ field w 0 4)⟩,
  -- LDRSH cccc000PU0W1nnnnddddzzzz1111mmmm
  ⟨0x0E5000F0, 0x001000F0, [condF], 0x00000F00, 0x00000000, [postW],
    fun w => .ldrshReg (Cond.ofCode (field w 28 4)) (IndexMode.of (bitAt w 24) (bitAt w 21)) (bitAt w 23) (field w 16 4) (field w 12 4) (field w 0 4)⟩]

/-- The rows of LDREX, STREX, PLD. -/
def rowsExclusive : List Row := [
  -- LDREX cccc00011001nnnnddddoooo1001oooo
  ⟨0x0FF000F0, 0x01900090, [condF], 0x00000000, 0x00000F0F, [],
    fun w => .ldrex (Cond.ofCode (field w 28 4)) (field w 16 4) (field w 12 4)⟩,
  -- STREX cccc00011000nnnnddddoooo1001mmmm
  ⟨0x0FF000F0, 0x01800090, [condF], 0x00000000, 0x00000F00, [],
    fun w => .strex (Cond.ofCode (field w 28 4)) (field w 16 4) (field w 12 4) (field w 0 4)⟩,
  -- PLD 11110101U101nnnnooooiiiiiiiiiiii
  ⟨0xFF700000, 0xF5500000, [], 0x00000000, 0x0000F000, [],
    fun w => .pldImm (bitAt w 23) (field w 16 4) (field w 0 12)⟩,
  -- PLD 11110111U101nnnnooooaaaaatt0mmmm
  ⟨0xFF700010, 0xF7500000, [], 0x00000000, 0x0000F000, [],
    fun w => .pldReg (bitAt w 23) (field w 16 4) (field w 7 5) (ShiftType.ofCode (field w 5 2)) (field w 0 4)⟩]

/-- The rows of LDM to SWPB. -/
def rowsBlock : List Row := [
  -- LDM__1 cccc100PU0W1nnnnrrrrrrrrrrrrrrrr
  ⟨0x0E500000, 0x08100000, [condF], 0x00000000, 0x00000000, [],
    fun w => .ldm1 (Cond.ofCode (field w 28 4)) (BlockMode.of (bitAt w 24) (bitAt w 23)) (bitAt w 21) (field w 16 4) (field w 0 16)⟩,
  -- LDM__2 cccc100PU1z1nnnn0rrrrrrrrrrrrrrr
  ⟨0x0E508000, 0x08500000, [condF], 0x00200000, 0x00000000, [],
    fun w => .ldm2 (Cond.ofCode (field w 28 4)) (BlockMode.of (bitAt w 24) (bitAt w 23)) (field w 16 4) (field w 0 15)⟩,
  -- LDM__3 cccc100PU1W1nnnn1rrrrrrrrrrrrrrr
  ⟨0x0E508000, 0x08508000, [condF], 0x00000000, 0x00000000, [],
    fun w => .ldm3 (Cond.ofCode (field w 28 4)) (BlockMode.of (bitAt w 24) (bitAt w 23)) (bitAt w 21) (field w 16 4) (field w 0 15)⟩,
  -- STM__1 cccc100PU0W0nnnnrrrrrrrrrrrrrrrr
  ⟨0x0E500000, 0x08000000, [condF], 0x00000000, 0x00000000, [],
    fun w => .stm1 (Cond.ofCode (field w 28 4)) (BlockMode.of (bitAt w 24) (bitAt w 23)) (bitAt w 21) (field w 16 4) (field w 0 16)⟩,
  -- STM__2 cccc100PU1z0nnnnrrrrrrrrrrrrrrrr
  ⟨0x0E500000, 0x08400000, [condF], 0x00200000, 0x00000000, [],
    fun w => .stm2 (Cond.ofCode (field w 28 4)) (BlockMode.of (bitAt w 24) (bitAt w 23)) (field w 16 4) (field w 0 16)⟩,
  -- RFE 1111100PU0W1nnnnzzzzozozzzzzzzzz
  ⟨0xFE500000, 0xF8100000, [], 0x0000F5FF, 0x00000A00, [],
    fun w => .rfe (BlockMode.of (bitAt w 24) (bitAt w 23)) (bitAt w 21) (field w 16 4)⟩,
  -- SRS 1111100PU1W0oozozzzzzozozzzmmmmm
  ⟨0xFE500000, 0xF8400000, [], 0x0002FAE0, 0x000D0500, [],
    fun w => .srs (BlockMode.of (bitAt w 24) (bitAt w 23)) (bitAt w 21) (field w 0 5)⟩,
  -- SWP cccc00010000nnnnddddzzzz1001mmmm
  ⟨0x0FF000F0, 0x01000090, [condF], 0x00000F00, 0x00000000, [],
    fun w => .swp (Cond.ofCode (field w 28 4)) (field w 16 4) (field w 12 4) (field w 0 4)⟩,
  -- SWPB cccc00010100nnnnddddzzzz1001mmmm
  ⟨0x0FF000F0, 0x01400090, [condF], 0x00000F00, 0x00000000, [],
    fun w => .swpb (Cond.ofCode (field w 28 4)) (field w 16 4) (field w 12 4) (field w 0 4)⟩]

/-- The rows of SWI, BKPT, the architecturally Undefined instruction. -/
def rowsException : List Row := [
  -- SWI cccc1111iiiiiiiiiiiiiiiiiiiiiiii
  ⟨0x0F000000, 0x0F000000, [condF], 0x00000000, 0x00000000, [],
    fun w => .swi (Cond.ofCode (field w 28 4)) (field w 0 24)⟩,
  -- BKPT cccc00010010iiiiiiiiiiii0111jjjj
  ⟨0x0FF000F0, 0x01200070, [condF], 0x00000000, 0x00000000, [],
    fun w => .bkpt (Cond.ofCode (field w 28 4)) (field w 8 12 ++ field w 0 4)⟩,
  -- UNDEFINED__architecturally_Undefined cccc01111111xxxxxxxxxxxx1111yyyy
  ⟨0x0FF000F0, 0x07F000F0, [condF], 0x00000000, 0x00000000, [],
    fun w => .undef (Cond.ofCode (field w 28 4)) (field w 8 12 ++ field w 0 4)⟩]

/-- The rows of the coprocessor instructions. -/
def rowsCoproc : List Row := [
  -- CDP cccc1110aaaannnnddddppppbbb0mmmm
  ⟨0x0F000010, 0x0E000000, [condF], 0x00000000, 0x00000000, [],
    fun w => .cdp (Cond.ofCode (field w 28 4)) (field w 20 4) (field w 16 4) (field w 12 4) (field w 8 4) (field w 5 3) (field w 0 4)⟩,
  -- LDC cccc110PUNW1nnnnddddppppiiiiiiii
  ⟨0x0E100000, 0x0C100000, [condF, noPUW], 0x00000000, 0x00000000, [],
    fun w => .ldc (Cond.ofCode (field w 28 4)) (bitAt w 24) (bitAt w 23) (bitAt w 22) (bitAt w 21) (field w 16 4) (field w 12 4) (field w 8 4) (field w 0 8)⟩,
  -- STC cccc110PUNW0nnnnddddppppiiiiiiii
  ⟨0x0E100000, 0x0C000000, [condF, noPUW], 0x00000000, 0x00000000, [],
    fun w => .stc (Cond.ofCode (field w 28 4)) (bitAt w 24) (bitAt w 23) (bitAt w 22) (bitAt w 21) (field w 16 4) (field w 12 4) (field w 8 4) (field w 0 8)⟩,
  -- MCR cccc1110aaa0nnnnddddppppbbb1mmmm
  ⟨0x0F100010, 0x0E000010, [condF], 0x00000000, 0x00000000, [],
    fun w => .mcr (Cond.ofCode (field w 28 4)) (field w 21 3) (field w 16 4) (field w 12 4) (field w 8 4) (field w 5 3) (field w 0 4)⟩,
  -- MRC cccc1110aaa1nnnnddddppppbbb1mmmm
  ⟨0x0F100010, 0x0E100010, [condF], 0x00000000, 0x00000000, [],
    fun w => .mrc (Cond.ofCode (field w 28 4)) (field w 21 3) (field w 16 4) (field w 12 4) (field w 8 4) (field w 5 3) (field w 0 4)⟩,
  -- MCRR cccc11000100nnnnddddppppaaaammmm
  ⟨0x0FF00000, 0x0C400000, [condF], 0x00000000, 0x00000000, [],
    fun w => .mcrr (Cond.ofCode (field w 28 4)) (field w 16 4) (field w 12 4) (field w 8 4) (field w 4 4) (field w 0 4)⟩,
  -- MRRC cccc11000101nnnnddddppppaaaammmm
  ⟨0x0FF00000, 0x0C500000, [condF], 0x00000000, 0x00000000, [],
    fun w => .mrrc (Cond.ofCode (field w 28 4)) (field w 16 4) (field w 12 4) (field w 8 4) (field w 4 4) (field w 0 4)⟩]

/-- The rows of the unconditional coprocessor instructions. -/
def rowsCoproc2 : List Row := [
  -- CDP2 11111110aaaannnnddddppppbbb0mmmm
  ⟨0xFF000010, 0xFE000000, [], 0x00000000, 0x00000000, [],
    fun w => .cdp2 (field w 20 4) (field w 16 4) (field w 12 4) (field w 8 4) (field w 5 3) (field w 0 4)⟩,
  -- LDC2 1111110PUNW1nnnnddddppppiiiiiiii
  ⟨0xFE100000, 0xFC100000, [noPUW], 0x00000000, 0x00000000, [],
    fun w => .ldc2 (bitAt w 24) (bitAt w 23) (bitAt w 22) (bitAt w 21) (field w 16 4) (field w 12 4) (field w 8 4) (field w 0 8)⟩,
  -- STC2 1111110PUNW0nnnnddddppppiiiiiiii
  ⟨0xFE100000, 0xFC000000, [noPUW], 0x00000000, 0x00000000, [],
    fun w => .stc2 (bitAt w 24) (bitAt w 23) (bitAt w 22) (bitAt w 21) (field w 16 4) (field w 12 4) (field w 8 4) (field w 0 8)⟩,
  -- MCR2 11111110aaa0nnnnddddppppbbb1mmmm
  ⟨0xFF100010, 0xFE000010, [], 0x00000000, 0x00000000, [],
    fun w => .mcr2 (field w 21 3) (field w 16 4) (field w 12 4) (field w 8 4) (field w 5 3) (field w 0 4)⟩,
  -- MRC2 11111110aaa1nnnnddddppppbbb1mmmm
  ⟨0xFF100010, 0xFE100010, [], 0x00000000, 0x00000000, [],
    fun w => .mrc2 (field w 21 3) (field w 16 4) (field w 12 4) (field w 8 4) (field w 5 3) (field w 0 4)⟩,
  -- MCRR2 111111000100nnnnddddppppaaaammmm
  ⟨0xFFF00000, 0xFC400000, [], 0x00000000, 0x00000000, [],
    fun w => .mcrr2 (field w 16 4) (field w 12 4) (field w 8 4) (field w 4 4) (field w 0 4)⟩,
  -- MRRC2 111111000101nnnnddddppppaaaammmm
  ⟨0xFFF00000, 0xFC500000, [], 0x00000000, 0x00000000, [],
    fun w => .mrrc2 (field w 16 4) (field w 12 4) (field w 8 4) (field w 4 4) (field w 0 4)⟩]

/-- The opcode table, in its order. -/
def table : List Row :=
  rowsLogical ++ rowsAddSub ++ rowsTest ++ rowsMove ++ rowsMultiply ++ rowsParallelS ++ rowsParallelU ++ rowsExtend ++ rowsMisc ++
  rowsStatus ++ rowsBranch ++ rowsWord ++ rowsHalf ++ rowsExclusive ++ rowsBlock ++ rowsException ++ rowsCoproc ++ rowsCoproc2

/-- The class of a word (R126, R127, R129, R130): no two rows match one word, so the order of the table does not matter. -/
def decodeWord (w : Word) : Decoded :=
  match table.find? (fun r => r.accepts w) with
  | some r => if r.proper w then .instr (r.build w) else .unpredictable
  | none => .undefined

/-- The word of four bytes in instruction byte order, the first at the lowest address: little-endian whatever CPSR.E
(20_memory.md R75). -/
def wordOfBytes (b0 b1 b2 b3 : Byte) : Word := b3 ++ b2 ++ b1 ++ b0

/-- Byte `k` of a word in that order (R75). -/
def byteOfWord (w : Word) (k : Nat) : Byte := w.extractLsb' (8 * k) 8

/-- Decode the four bytes of an instruction, the one at the lowest address first (R75, R100). -/
def decodeBytes (b0 b1 b2 b3 : Byte) : Decoded := decodeWord (wordOfBytes b0 b1 b2 b3)

/-- The instruction the decoder reads from the word `w`, stored as the hardware stores it. An instruction is 32 bits
(R100), so the bits above `nbits` are 0. `none` where the word is UNDEFINED or UNPREDICTABLE. -/
def decodeTableWord (nbits w : Nat) : Option Instr :=
  let v : Word := BitVec.ofNat 32 (w % 2 ^ nbits)
  match decodeBytes (byteOfWord v 0) (byteOfWord v 1) (byteOfWord v 2) (byteOfWord v 3) with
  | .instr i => some i
  | .undefined => none
  | .unpredictable => none

/-! ### The encoder -/

/-- The word of an instruction: the fixed and should-be-one bits of its encoding, and its fields each in its place. -/
def encode : Instr → Word
  | .andShift c s rn rd imm5 ty rm =>
    0x00000000 ||| place 28 c.code ||| flag 20 s ||| place 16 rn ||| place 12 rd ||| place 7 imm5 ||| place 5 ty.code ||| place 0 rm
  | .andReg c s rn rd rs ty rm =>
    0x00000010 ||| place 28 c.code ||| flag 20 s ||| place 16 rn ||| place 12 rd ||| place 8 rs ||| place 5 ty.code ||| place 0 rm
  | .andImm c s rn rd rot imm8 =>
    0x02000000 ||| place 28 c.code ||| flag 20 s ||| place 16 rn ||| place 12 rd ||| place 8 rot ||| place 0 imm8
  | .eorShift c s rn rd imm5 ty rm =>
    0x00200000 ||| place 28 c.code ||| flag 20 s ||| place 16 rn ||| place 12 rd ||| place 7 imm5 ||| place 5 ty.code ||| place 0 rm
  | .eorReg c s rn rd rs ty rm =>
    0x00200010 ||| place 28 c.code ||| flag 20 s ||| place 16 rn ||| place 12 rd ||| place 8 rs ||| place 5 ty.code ||| place 0 rm
  | .eorImm c s rn rd rot imm8 =>
    0x02200000 ||| place 28 c.code ||| flag 20 s ||| place 16 rn ||| place 12 rd ||| place 8 rot ||| place 0 imm8
  | .subShift c s rn rd imm5 ty rm =>
    0x00400000 ||| place 28 c.code ||| flag 20 s ||| place 16 rn ||| place 12 rd ||| place 7 imm5 ||| place 5 ty.code ||| place 0 rm
  | .subReg c s rn rd rs ty rm =>
    0x00400010 ||| place 28 c.code ||| flag 20 s ||| place 16 rn ||| place 12 rd ||| place 8 rs ||| place 5 ty.code ||| place 0 rm
  | .subImm c s rn rd rot imm8 =>
    0x02400000 ||| place 28 c.code ||| flag 20 s ||| place 16 rn ||| place 12 rd ||| place 8 rot ||| place 0 imm8
  | .rsbShift c s rn rd imm5 ty rm =>
    0x00600000 ||| place 28 c.code ||| flag 20 s ||| place 16 rn ||| place 12 rd ||| place 7 imm5 ||| place 5 ty.code ||| place 0 rm
  | .rsbReg c s rn rd rs ty rm =>
    0x00600010 ||| place 28 c.code ||| flag 20 s ||| place 16 rn ||| place 12 rd ||| place 8 rs ||| place 5 ty.code ||| place 0 rm
  | .rsbImm c s rn rd rot imm8 =>
    0x02600000 ||| place 28 c.code ||| flag 20 s ||| place 16 rn ||| place 12 rd ||| place 8 rot ||| place 0 imm8
  | .addShift c s rn rd imm5 ty rm =>
    0x00800000 ||| place 28 c.code ||| flag 20 s ||| place 16 rn ||| place 12 rd ||| place 7 imm5 ||| place 5 ty.code ||| place 0 rm
  | .addReg c s rn rd rs ty rm =>
    0x00800010 ||| place 28 c.code ||| flag 20 s ||| place 16 rn ||| place 12 rd ||| place 8 rs ||| place 5 ty.code ||| place 0 rm
  | .addImm c s rn rd rot imm8 =>
    0x02800000 ||| place 28 c.code ||| flag 20 s ||| place 16 rn ||| place 12 rd ||| place 8 rot ||| place 0 imm8
  | .adcShift c s rn rd imm5 ty rm =>
    0x00A00000 ||| place 28 c.code ||| flag 20 s ||| place 16 rn ||| place 12 rd ||| place 7 imm5 ||| place 5 ty.code ||| place 0 rm
  | .adcReg c s rn rd rs ty rm =>
    0x00A00010 ||| place 28 c.code ||| flag 20 s ||| place 16 rn ||| place 12 rd ||| place 8 rs ||| place 5 ty.code ||| place 0 rm
  | .adcImm c s rn rd rot imm8 =>
    0x02A00000 ||| place 28 c.code ||| flag 20 s ||| place 16 rn ||| place 12 rd ||| place 8 rot ||| place 0 imm8
  | .sbcShift c s rn rd imm5 ty rm =>
    0x00C00000 ||| place 28 c.code ||| flag 20 s ||| place 16 rn ||| place 12 rd ||| place 7 imm5 ||| place 5 ty.code ||| place 0 rm
  | .sbcReg c s rn rd rs ty rm =>
    0x00C00010 ||| place 28 c.code ||| flag 20 s ||| place 16 rn ||| place 12 rd ||| place 8 rs ||| place 5 ty.code ||| place 0 rm
  | .sbcImm c s rn rd rot imm8 =>
    0x02C00000 ||| place 28 c.code ||| flag 20 s ||| place 16 rn ||| place 12 rd ||| place 8 rot ||| place 0 imm8
  | .rscShift c s rn rd imm5 ty rm =>
    0x00E00000 ||| place 28 c.code ||| flag 20 s ||| place 16 rn ||| place 12 rd ||| place 7 imm5 ||| place 5 ty.code ||| place 0 rm
  | .rscReg c s rn rd rs ty rm =>
    0x00E00010 ||| place 28 c.code ||| flag 20 s ||| place 16 rn ||| place 12 rd ||| place 8 rs ||| place 5 ty.code ||| place 0 rm
  | .rscImm c s rn rd rot imm8 =>
    0x02E00000 ||| place 28 c.code ||| flag 20 s ||| place 16 rn ||| place 12 rd ||| place 8 rot ||| place 0 imm8
  | .tstShift c rn imm5 ty rm =>
    0x01100000 ||| place 28 c.code ||| place 16 rn ||| place 7 imm5 ||| place 5 ty.code ||| place 0 rm
  | .tstReg c rn rs ty rm =>
    0x01100010 ||| place 28 c.code ||| place 16 rn ||| place 8 rs ||| place 5 ty.code ||| place 0 rm
  | .tstImm c rn rot imm8 =>
    0x03100000 ||| place 28 c.code ||| place 16 rn ||| place 8 rot ||| place 0 imm8
  | .teqShift c rn imm5 ty rm =>
    0x01300000 ||| place 28 c.code ||| place 16 rn ||| place 7 imm5 ||| place 5 ty.code ||| place 0 rm
  | .teqReg c rn rs ty rm =>
    0x01300010 ||| place 28 c.code ||| place 16 rn ||| place 8 rs ||| place 5 ty.code ||| place 0 rm
  | .teqImm c rn rot imm8 =>
    0x03300000 ||| place 28 c.code ||| place 16 rn ||| place 8 rot ||| place 0 imm8
  | .cmpShift c rn imm5 ty rm =>
    0x01500000 ||| place 28 c.code ||| place 16 rn ||| place 7 imm5 ||| place 5 ty.code ||| place 0 rm
  | .cmpReg c rn rs ty rm =>
    0x01500010 ||| place 28 c.code ||| place 16 rn ||| place 8 rs ||| place 5 ty.code ||| place 0 rm
  | .cmpImm c rn rot imm8 =>
    0x03500000 ||| place 28 c.code ||| place 16 rn ||| place 8 rot ||| place 0 imm8
  | .cmnShift c rn imm5 ty rm =>
    0x01700000 ||| place 28 c.code ||| place 16 rn ||| place 7 imm5 ||| place 5 ty.code ||| place 0 rm
  | .cmnReg c rn rs ty rm =>
    0x01700010 ||| place 28 c.code ||| place 16 rn ||| place 8 rs ||| place 5 ty.code ||| place 0 rm
  | .cmnImm c rn rot imm8 =>
    0x03700000 ||| place 28 c.code ||| place 16 rn ||| place 8 rot ||| place 0 imm8
  | .orrShift c s rn rd imm5 ty rm =>
    0x01800000 ||| place 28 c.code ||| flag 20 s ||| place 16 rn ||| place 12 rd ||| place 7 imm5 ||| place 5 ty.code ||| place 0 rm
  | .orrReg c s rn rd rs ty rm =>
    0x01800010 ||| place 28 c.code ||| flag 20 s ||| place 16 rn ||| place 12 rd ||| place 8 rs ||| place 5 ty.code ||| place 0 rm
  | .orrImm c s rn rd rot imm8 =>
    0x03800000 ||| place 28 c.code ||| flag 20 s ||| place 16 rn ||| place 12 rd ||| place 8 rot ||| place 0 imm8
  | .movShift c s rd imm5 ty rm =>
    0x01A00000 ||| place 28 c.code ||| flag 20 s ||| place 12 rd ||| place 7 imm5 ||| place 5 ty.code ||| place 0 rm
  | .movReg c s rd rs ty rm =>
    0x01A00010 ||| place 28 c.code ||| flag 20 s ||| place 12 rd ||| place 8 rs ||| place 5 ty.code ||| place 0 rm
  | .movImm c s rd rot imm8 =>
    0x03A00000 ||| place 28 c.code ||| flag 20 s ||| place 12 rd ||| place 8 rot ||| place 0 imm8
  | .bicShift c s rn rd imm5 ty rm =>
    0x01C00000 ||| place 28 c.code ||| flag 20 s ||| place 16 rn ||| place 12 rd ||| place 7 imm5 ||| place 5 ty.code ||| place 0 rm
  | .bicReg c s rn rd rs ty rm =>
    0x01C00010 ||| place 28 c.code ||| flag 20 s ||| place 16 rn ||| place 12 rd ||| place 8 rs ||| place 5 ty.code ||| place 0 rm
  | .bicImm c s rn rd rot imm8 =>
    0x03C00000 ||| place 28 c.code ||| flag 20 s ||| place 16 rn ||| place 12 rd ||| place 8 rot ||| place 0 imm8
  | .mvnShift c s rd imm5 ty rm =>
    0x01E00000 ||| place 28 c.code ||| flag 20 s ||| place 12 rd ||| place 7 imm5 ||| place 5 ty.code ||| place 0 rm
  | .mvnReg c s rd rs ty rm =>
    0x01E00010 ||| place 28 c.code ||| flag 20 s ||| place 12 rd ||| place 8 rs ||| place 5 ty.code ||| place 0 rm
  | .mvnImm c s rd rot imm8 =>
    0x03E00000 ||| place 28 c.code ||| flag 20 s ||| place 12 rd ||| place 8 rot ||| place 0 imm8
  | .mul c s rd rs rm =>
    0x00000090 ||| place 28 c.code ||| flag 20 s ||| place 16 rd ||| place 8 rs ||| place 0 rm
  | .mla c s rd rn rs rm =>
    0x00200090 ||| place 28 c.code ||| flag 20 s ||| place 16 rd ||| place 12 rn ||| place 8 rs ||| place 0 rm
  | .umaal c rdHi rdLo rs rm =>
    0x00400090 ||| place 28 c.code ||| place 16 rdHi ||| place 12 rdLo ||| place 8 rs ||| place 0 rm
  | .umull c s rdHi rdLo rs rm =>
    0x00800090 ||| place 28 c.code ||| flag 20 s ||| place 16 rdHi ||| place 12 rdLo ||| place 8 rs ||| place 0 rm
  | .umlal c s rdHi rdLo rs rm =>
    0x00A00090 ||| place 28 c.code ||| flag 20 s ||| place 16 rdHi ||| place 12 rdLo ||| place 8 rs ||| place 0 rm
  | .smull c s rdHi rdLo rs rm =>
    0x00C00090 ||| place 28 c.code ||| flag 20 s ||| place 16 rdHi ||| place 12 rdLo ||| place 8 rs ||| place 0 rm
  | .smlal c s rdHi rdLo rs rm =>
    0x00E00090 ||| place 28 c.code ||| flag 20 s ||| place 16 rdHi ||| place 12 rdLo ||| place 8 rs ||| place 0 rm
  | .smlaXY c rd rn rs y x rm =>
    0x01000080 ||| place 28 c.code ||| place 16 rd ||| place 12 rn ||| place 8 rs ||| flag 6 y ||| flag 5 x ||| place 0 rm
  | .smlawY c rd rn rs y rm =>
    0x01200080 ||| place 28 c.code ||| place 16 rd ||| place 12 rn ||| place 8 rs ||| flag 6 y ||| place 0 rm
  | .smulwY c rd rs y rm =>
    0x012000A0 ||| place 28 c.code ||| place 16 rd ||| place 8 rs ||| flag 6 y ||| place 0 rm
  | .smlalXY c rdHi rdLo rs y x rm =>
    0x01400080 ||| place 28 c.code ||| place 16 rdHi ||| place 12 rdLo ||| place 8 rs ||| flag 6 y ||| flag 5 x ||| place 0 rm
  | .smulXY c rd rs y x rm =>
    0x01600080 ||| place 28 c.code ||| place 16 rd ||| place 8 rs ||| flag 6 y ||| flag 5 x ||| place 0 rm
  | .smuad c rd rs x rm =>
    0x0700F010 ||| place 28 c.code ||| place 16 rd ||| place 8 rs ||| flag 5 x ||| place 0 rm
  | .smusd c rd rs x rm =>
    0x0700F050 ||| place 28 c.code ||| place 16 rd ||| place 8 rs ||| flag 5 x ||| place 0 rm
  | .smlad c rd rn rs x rm =>
    0x07000010 ||| place 28 c.code ||| place 16 rd ||| place 12 rn ||| place 8 rs ||| flag 5 x ||| place 0 rm
  | .smlsd c rd rn rs x rm =>
    0x07000050 ||| place 28 c.code ||| place 16 rd ||| place 12 rn ||| place 8 rs ||| flag 5 x ||| place 0 rm
  | .smlald c rdHi rdLo rs x rm =>
    0x07400010 ||| place 28 c.code ||| place 16 rdHi ||| place 12 rdLo ||| place 8 rs ||| flag 5 x ||| place 0 rm
  | .smlsld c rdHi rdLo rs x rm =>
    0x07400050 ||| place 28 c.code ||| place 16 rdHi ||| place 12 rdLo ||| place 8 rs ||| flag 5 x ||| place 0 rm
  | .smmul c rd rs r rm =>
    0x0750F010 ||| place 28 c.code ||| place 16 rd ||| place 8 rs ||| flag 5 r ||| place 0 rm
  | .smmla c rd rn rs r rm =>
    0x07500010 ||| place 28 c.code ||| place 16 rd ||| place 12 rn ||| place 8 rs ||| flag 5 r ||| place 0 rm
  | .smmls c rd rn rs r rm =>
    0x075000D0 ||| place 28 c.code ||| place 16 rd ||| place 12 rn ||| place 8 rs ||| flag 5 r ||| place 0 rm
  | .sadd16 c rn rd rm =>
    0x06100F10 ||| place 28 c.code ||| place 16 rn ||| place 12 rd ||| place 0 rm
  | .saddsubx c rn rd rm =>
    0x06100F30 ||| place 28 c.code ||| place 16 rn ||| place 12 rd ||| place 0 rm
  | .ssubaddx c rn rd rm =>
    0x06100F50 ||| place 28 c.code ||| place 16 rn ||| place 12 rd ||| place 0 rm
  | .ssub16 c rn rd rm =>
    0x06100F70 ||| place 28 c.code ||| place 16 rn ||| place 12 rd ||| place 0 rm
  | .sadd8 c rn rd rm =>
    0x06100F90 ||| place 28 c.code ||| place 16 rn ||| place 12 rd ||| place 0 rm
  | .ssub8 c rn rd rm =>
    0x06100FF0 ||| place 28 c.code ||| place 16 rn ||| place 12 rd ||| place 0 rm
  | .qadd16 c rn rd rm =>
    0x06200F10 ||| place 28 c.code ||| place 16 rn ||| place 12 rd ||| place 0 rm
  | .qaddsubx c rn rd rm =>
    0x06200F30 ||| place 28 c.code ||| place 16 rn ||| place 12 rd ||| place 0 rm
  | .qsubaddx c rn rd rm =>
    0x06200F50 ||| place 28 c.code ||| place 16 rn ||| place 12 rd ||| place 0 rm
  | .qsub16 c rn rd rm =>
    0x06200F70 ||| place 28 c.code ||| place 16 rn ||| place 12 rd ||| place 0 rm
  | .qadd8 c rn rd rm =>
    0x06200F90 ||| place 28 c.code ||| place 16 rn ||| place 12 rd ||| place 0 rm
  | .qsub8 c rn rd rm =>
    0x06200FF0 ||| place 28 c.code ||| place 16 rn ||| place 12 rd ||| place 0 rm
  | .shadd16 c rn rd rm =>
    0x06300F10 ||| place 28 c.code ||| place 16 rn ||| place 12 rd ||| place 0 rm
  | .shaddsubx c rn rd rm =>
    0x06300F30 ||| place 28 c.code ||| place 16 rn ||| place 12 rd ||| place 0 rm
  | .shsubaddx c rn rd rm =>
    0x06300F50 ||| place 28 c.code ||| place 16 rn ||| place 12 rd ||| place 0 rm
  | .shsub16 c rn rd rm =>
    0x06300F70 ||| place 28 c.code ||| place 16 rn ||| place 12 rd ||| place 0 rm
  | .shadd8 c rn rd rm =>
    0x06300F90 ||| place 28 c.code ||| place 16 rn ||| place 12 rd ||| place 0 rm
  | .shsub8 c rn rd rm =>
    0x06300FF0 ||| place 28 c.code ||| place 16 rn ||| place 12 rd ||| place 0 rm
  | .uadd16 c rn rd rm =>
    0x06500F10 ||| place 28 c.code ||| place 16 rn ||| place 12 rd ||| place 0 rm
  | .uaddsubx c rn rd rm =>
    0x06500F30 ||| place 28 c.code ||| place 16 rn ||| place 12 rd ||| place 0 rm
  | .usubaddx c rn rd rm =>
    0x06500F50 ||| place 28 c.code ||| place 16 rn ||| place 12 rd ||| place 0 rm
  | .usub16 c rn rd rm =>
    0x06500F70 ||| place 28 c.code ||| place 16 rn ||| place 12 rd ||| place 0 rm
  | .uadd8 c rn rd rm =>
    0x06500F90 ||| place 28 c.code ||| place 16 rn ||| place 12 rd ||| place 0 rm
  | .usub8 c rn rd rm =>
    0x06500FF0 ||| place 28 c.code ||| place 16 rn ||| place 12 rd ||| place 0 rm
  | .uqadd16 c rn rd rm =>
    0x06600F10 ||| place 28 c.code ||| place 16 rn ||| place 12 rd ||| place 0 rm
  | .uqaddsubx c rn rd rm =>
    0x06600F30 ||| place 28 c.code ||| place 16 rn ||| place 12 rd ||| place 0 rm
  | .uqsubaddx c rn rd rm =>
    0x06600F50 ||| place 28 c.code ||| place 16 rn ||| place 12 rd ||| place 0 rm
  | .uqsub16 c rn rd rm =>
    0x06600F70 ||| place 28 c.code ||| place 16 rn ||| place 12 rd ||| place 0 rm
  | .uqadd8 c rn rd rm =>
    0x06600F90 ||| place 28 c.code ||| place 16 rn ||| place 12 rd ||| place 0 rm
  | .uqsub8 c rn rd rm =>
    0x06600FF0 ||| place 28 c.code ||| place 16 rn ||| place 12 rd ||| place 0 rm
  | .uhadd16 c rn rd rm =>
    0x06700F10 ||| place 28 c.code ||| place 16 rn ||| place 12 rd ||| place 0 rm
  | .uhaddsubx c rn rd rm =>
    0x06700F30 ||| place 28 c.code ||| place 16 rn ||| place 12 rd ||| place 0 rm
  | .uhsubaddx c rn rd rm =>
    0x06700F50 ||| place 28 c.code ||| place 16 rn ||| place 12 rd ||| place 0 rm
  | .uhsub16 c rn rd rm =>
    0x06700F70 ||| place 28 c.code ||| place 16 rn ||| place 12 rd ||| place 0 rm
  | .uhadd8 c rn rd rm =>
    0x06700F90 ||| place 28 c.code ||| place 16 rn ||| place 12 rd ||| place 0 rm
  | .uhsub8 c rn rd rm =>
    0x06700FF0 ||| place 28 c.code ||| place 16 rn ||| place 12 rd ||| place 0 rm
  | .sxtab16 c rn rd rot rm =>
    0x06800070 ||| place 28 c.code ||| place 16 rn ||| place 12 rd ||| place 10 rot ||| place 0 rm
  | .sxtb16 c rd rot rm =>
    0x068F0070 ||| place 28 c.code ||| place 12 rd ||| place 10 rot ||| place 0 rm
  | .sxtab c rn rd rot rm =>
    0x06A00070 ||| place 28 c.code ||| place 16 rn ||| place 12 rd ||| place 10 rot ||| place 0 rm
  | .sxtb c rd rot rm =>
    0x06AF0070 ||| place 28 c.code ||| place 12 rd ||| place 10 rot ||| place 0 rm
  | .sxtah c rn rd rot rm =>
    0x06B00070 ||| place 28 c.code ||| place 16 rn ||| place 12 rd ||| place 10 rot ||| place 0 rm
  | .sxth c rd rot rm =>
    0x06BF0070 ||| place 28 c.code ||| place 12 rd ||| place 10 rot ||| place 0 rm
  | .uxtab16 c rn rd rot rm =>
    0x06C00070 ||| place 28 c.code ||| place 16 rn ||| place 12 rd ||| place 10 rot ||| place 0 rm
  | .uxtb16 c rd rot rm =>
    0x06CF0070 ||| place 28 c.code ||| place 12 rd ||| place 10 rot ||| place 0 rm
  | .uxtab c rn rd rot rm =>
    0x06E00070 ||| place 28 c.code ||| place 16 rn ||| place 12 rd ||| place 10 rot ||| place 0 rm
  | .uxtb c rd rot rm =>
    0x06EF0070 ||| place 28 c.code ||| place 12 rd ||| place 10 rot ||| place 0 rm
  | .uxtah c rn rd rot rm =>
    0x06F00070 ||| place 28 c.code ||| place 16 rn ||| place 12 rd ||| place 10 rot ||| place 0 rm
  | .uxth c rd rot rm =>
    0x06FF0070 ||| place 28 c.code ||| place 12 rd ||| place 10 rot ||| place 0 rm
  | .clz c rd rm =>
    0x016F0F10 ||| place 28 c.code ||| place 12 rd ||| place 0 rm
  | .usad8 c rd rs rm =>
    0x0780F010 ||| place 28 c.code ||| place 16 rd ||| place 8 rs ||| place 0 rm
  | .usada8 c rd rn rs rm =>
    0x07800010 ||| place 28 c.code ||| place 16 rd ||| place 12 rn ||| place 8 rs ||| place 0 rm
  | .pkhbt c rn rd imm5 rm =>
    0x06800010 ||| place 28 c.code ||| place 16 rn ||| place 12 rd ||| place 7 imm5 ||| place 0 rm
  | .pkhtb c rn rd imm5 rm =>
    0x06800050 ||| place 28 c.code ||| place 16 rn ||| place 12 rd ||| place 7 imm5 ||| place 0 rm
  | .rev c rd rm =>
    0x06BF0F30 ||| place 28 c.code ||| place 12 rd ||| place 0 rm
  | .rev16 c rd rm =>
    0x06BF0FB0 ||| place 28 c.code ||| place 12 rd ||| place 0 rm
  | .revsh c rd rm =>
    0x06FF0FB0 ||| place 28 c.code ||| place 12 rd ||| place 0 rm
  | .sel c rn rd rm =>
    0x06800FB0 ||| place 28 c.code ||| place 16 rn ||| place 12 rd ||| place 0 rm
  | .ssat c sat rd imm5 sh rm =>
    0x06A00010 ||| place 28 c.code ||| place 16 sat ||| place 12 rd ||| place 7 imm5 ||| flag 6 sh ||| place 0 rm
  | .ssat16 c sat rd rm =>
    0x06A00F30 ||| place 28 c.code ||| place 16 sat ||| place 12 rd ||| place 0 rm
  | .usat c sat rd imm5 sh rm =>
    0x06E00010 ||| place 28 c.code ||| place 16 sat ||| place 12 rd ||| place 7 imm5 ||| flag 6 sh ||| place 0 rm
  | .usat16 c sat rd rm =>
    0x06E00F30 ||| place 28 c.code ||| place 16 sat ||| place 12 rd ||| place 0 rm
  | .qadd c rn rd rm =>
    0x01000050 ||| place 28 c.code ||| place 16 rn ||| place 12 rd ||| place 0 rm
  | .qsub c rn rd rm =>
    0x01200050 ||| place 28 c.code ||| place 16 rn ||| place 12 rd ||| place 0 rm
  | .qdadd c rn rd rm =>
    0x01400050 ||| place 28 c.code ||| place 16 rn ||| place 12 rd ||| place 0 rm
  | .qdsub c rn rd rm =>
    0x01600050 ||| place 28 c.code ||| place 16 rn ||| place 12 rd ||| place 0 rm
  | .mrs c r rd =>
    0x010F0000 ||| place 28 c.code ||| flag 22 r ||| place 12 rd
  | .msrImm c r mask rot imm8 =>
    0x0320F000 ||| place 28 c.code ||| flag 22 r ||| place 16 mask ||| place 8 rot ||| place 0 imm8
  | .msrReg c r mask rm =>
    0x0120F000 ||| place 28 c.code ||| flag 22 r ||| place 16 mask ||| place 0 rm
  | .cps imod mmod a i f mode =>
    0xF1000000 ||| place 18 imod ||| flag 17 mmod ||| flag 8 a ||| flag 7 i ||| flag 6 f ||| place 0 mode
  | .setend e =>
    0xF1010000 ||| flag 9 e
  | .b c imm24 =>
    0x0A000000 ||| place 28 c.code ||| place 0 imm24
  | .bl c imm24 =>
    0x0B000000 ||| place 28 c.code ||| place 0 imm24
  | .blx1 h imm24 =>
    0xFA000000 ||| flag 24 h ||| place 0 imm24
  | .blx2 c rm =>
    0x012FFF30 ||| place 28 c.code ||| place 0 rm
  | .bx c rm =>
    0x012FFF10 ||| place 28 c.code ||| place 0 rm
  | .bxj c rm =>
    0x012FFF20 ||| place 28 c.code ||| place 0 rm
  | .ldrImm c im u rn rd imm12 =>
    0x04100000 ||| place 28 c.code ||| flag 24 im.p ||| flag 21 im.w ||| flag 23 u ||| place 16 rn ||| place 12 rd ||| place 0 imm12
  | .ldrReg c im u rn rd imm5 ty rm =>
    0x06100000 ||| place 28 c.code ||| flag 24 im.p ||| flag 21 im.w ||| flag 23 u ||| place 16 rn ||| place 12 rd ||| place 7 imm5 ||| place 5 ty.code ||| place 0 rm
  | .ldrbImm c im u rn rd imm12 =>
    0x04500000 ||| place 28 c.code ||| flag 24 im.p ||| flag 21 im.w ||| flag 23 u ||| place 16 rn ||| place 12 rd ||| place 0 imm12
  | .ldrbReg c im u rn rd imm5 ty rm =>
    0x06500000 ||| place 28 c.code ||| flag 24 im.p ||| flag 21 im.w ||| flag 23 u ||| place 16 rn ||| place 12 rd ||| place 7 imm5 ||| place 5 ty.code ||| place 0 rm
  | .strImm c im u rn rd imm12 =>
    0x04000000 ||| place 28 c.code ||| flag 24 im.p ||| flag 21 im.w ||| flag 23 u ||| place 16 rn ||| place 12 rd ||| place 0 imm12
  | .strReg c im u rn rd imm5 ty rm =>
    0x06000000 ||| place 28 c.code ||| flag 24 im.p ||| flag 21 im.w ||| flag 23 u ||| place 16 rn ||| place 12 rd ||| place 7 imm5 ||| place 5 ty.code ||| place 0 rm
  | .strbImm c im u rn rd imm12 =>
    0x04400000 ||| place 28 c.code ||| flag 24 im.p ||| flag 21 im.w ||| flag 23 u ||| place 16 rn ||| place 12 rd ||| place 0 imm12
  | .strbReg c im u rn rd imm5 ty rm =>
    0x06400000 ||| place 28 c.code ||| flag 24 im.p ||| flag 21 im.w ||| flag 23 u ||| place 16 rn ||| place 12 rd ||| place 7 imm5 ||| place 5 ty.code ||| place 0 rm
  | .ldrtImm c u rn rd imm12 =>
    0x04300000 ||| place 28 c.code ||| flag 23 u ||| place 16 rn ||| place 12 rd ||| place 0 imm12
  | .ldrtReg c u rn rd imm5 ty rm =>
    0x06300000 ||| place 28 c.code ||| flag 23 u ||| place 16 rn ||| place 12 rd ||| place 7 imm5 ||| place 5 ty.code ||| place 0 rm
  | .ldrbtImm c u rn rd imm12 =>
    0x04700000 ||| place 28 c.code ||| flag 23 u ||| place 16 rn ||| place 12 rd ||| place 0 imm12
  | .ldrbtReg c u rn rd imm5 ty rm =>
    0x06700000 ||| place 28 c.code ||| flag 23 u ||| place 16 rn ||| place 12 rd ||| place 7 imm5 ||| place 5 ty.code ||| place 0 rm
  | .strtImm c u rn rd imm12 =>
    0x04200000 ||| place 28 c.code ||| flag 23 u ||| place 16 rn ||| place 12 rd ||| place 0 imm12
  | .strtReg c u rn rd imm5 ty rm =>
    0x06200000 ||| place 28 c.code ||| flag 23 u ||| place 16 rn ||| place 12 rd ||| place 7 imm5 ||| place 5 ty.code ||| place 0 rm
  | .strbtImm c u rn rd imm12 =>
    0x04600000 ||| place 28 c.code ||| flag 23 u ||| place 16 rn ||| place 12 rd ||| place 0 imm12
  | .strbtReg c u rn rd imm5 ty rm =>
    0x06600000 ||| place 28 c.code ||| flag 23 u ||| place 16 rn ||| place 12 rd ||| place 7 imm5 ||| place 5 ty.code ||| place 0 rm
  | .strhImm c im u rn rd imm8 =>
    0x004000B0 ||| place 28 c.code ||| flag 24 im.p ||| flag 21 im.w ||| flag 23 u ||| place 16 rn ||| place 12 rd ||| place 8 (imm8.extractLsb' 4 4) ||| place 0 (imm8.extractLsb' 0 4)
  | .strhReg c im u rn rd rm =>
    0x000000B0 ||| place 28 c.code ||| flag 24 im.p ||| flag 21 im.w ||| flag 23 u ||| place 16 rn ||| place 12 rd ||| place 0 rm
  | .ldrdImm c im u rn rd imm8 =>
    0x004000D0 ||| place 28 c.code ||| flag 24 im.p ||| flag 21 im.w ||| flag 23 u ||| place 16 rn ||| place 12 rd ||| place 8 (imm8.extractLsb' 4 4) ||| place 0 (imm8.extractLsb' 0 4)
  | .ldrdReg c im u rn rd rm =>
    0x000000D0 ||| place 28 c.code ||| flag 24 im.p ||| flag 21 im.w ||| flag 23 u ||| place 16 rn ||| place 12 rd ||| place 0 rm
  | .strdImm c im u rn rd imm8 =>
    0x004000F0 ||| place 28 c.code ||| flag 24 im.p ||| flag 21 im.w ||| flag 23 u ||| place 16 rn ||| place 12 rd ||| place 8 (imm8.extractLsb' 4 4) ||| place 0 (imm8.extractLsb' 0 4)
  | .strdReg c im u rn rd rm =>
    0x000000F0 ||| place 28 c.code ||| flag 24 im.p ||| flag 21 im.w ||| flag 23 u ||| place 16 rn ||| place 12 rd ||| place 0 rm
  | .ldrhImm c im u rn rd imm8 =>
    0x005000B0 ||| place 28 c.code ||| flag 24 im.p ||| flag 21 im.w ||| flag 23 u ||| place 16 rn ||| place 12 rd ||| place 8 (imm8.extractLsb' 4 4) ||| place 0 (imm8.extractLsb' 0 4)
  | .ldrhReg c im u rn rd rm =>
    0x001000B0 ||| place 28 c.code ||| flag 24 im.p ||| flag 21 im.w ||| flag 23 u ||| place 16 rn ||| place 12 rd ||| place 0 rm
  | .ldrsbImm c im u rn rd imm8 =>
    0x005000D0 ||| place 28 c.code ||| flag 24 im.p ||| flag 21 im.w ||| flag 23 u ||| place 16 rn ||| place 12 rd ||| place 8 (imm8.extractLsb' 4 4) ||| place 0 (imm8.extractLsb' 0 4)
  | .ldrsbReg c im u rn rd rm =>
    0x001000D0 ||| place 28 c.code ||| flag 24 im.p ||| flag 21 im.w ||| flag 23 u ||| place 16 rn ||| place 12 rd ||| place 0 rm
  | .ldrshImm c im u rn rd imm8 =>
    0x005000F0 ||| place 28 c.code ||| flag 24 im.p ||| flag 21 im.w ||| flag 23 u ||| place 16 rn ||| place 12 rd ||| place 8 (imm8.extractLsb' 4 4) ||| place 0 (imm8.extractLsb' 0 4)
  | .ldrshReg c im u rn rd rm =>
    0x001000F0 ||| place 28 c.code ||| flag 24 im.p ||| flag 21 im.w ||| flag 23 u ||| place 16 rn ||| place 12 rd ||| place 0 rm
  | .ldrex c rn rd =>
    0x01900F9F ||| place 28 c.code ||| place 16 rn ||| place 12 rd
  | .strex c rn rd rm =>
    0x01800F90 ||| place 28 c.code ||| place 16 rn ||| place 12 rd ||| place 0 rm
  | .pldImm u rn imm12 =>
    0xF550F000 ||| flag 23 u ||| place 16 rn ||| place 0 imm12
  | .pldReg u rn imm5 ty rm =>
    0xF750F000 ||| flag 23 u ||| place 16 rn ||| place 7 imm5 ||| place 5 ty.code ||| place 0 rm
  | .ldm1 c am w rn list =>
    0x08100000 ||| place 28 c.code ||| flag 24 am.p ||| flag 23 am.u ||| flag 21 w ||| place 16 rn ||| place 0 list
  | .ldm2 c am rn list =>
    0x08500000 ||| place 28 c.code ||| flag 24 am.p ||| flag 23 am.u ||| place 16 rn ||| place 0 list
  | .ldm3 c am w rn list =>
    0x08508000 ||| place 28 c.code ||| flag 24 am.p ||| flag 23 am.u ||| flag 21 w ||| place 16 rn ||| place 0 list
  | .stm1 c am w rn list =>
    0x08000000 ||| place 28 c.code ||| flag 24 am.p ||| flag 23 am.u ||| flag 21 w ||| place 16 rn ||| place 0 list
  | .stm2 c am rn list =>
    0x08400000 ||| place 28 c.code ||| flag 24 am.p ||| flag 23 am.u ||| place 16 rn ||| place 0 list
  | .rfe am w rn =>
    0xF8100A00 ||| flag 24 am.p ||| flag 23 am.u ||| flag 21 w ||| place 16 rn
  | .srs am w mode =>
    0xF84D0500 ||| flag 24 am.p ||| flag 23 am.u ||| flag 21 w ||| place 0 mode
  | .swp c rn rd rm =>
    0x01000090 ||| place 28 c.code ||| place 16 rn ||| place 12 rd ||| place 0 rm
  | .swpb c rn rd rm =>
    0x01400090 ||| place 28 c.code ||| place 16 rn ||| place 12 rd ||| place 0 rm
  | .swi c imm24 =>
    0x0F000000 ||| place 28 c.code ||| place 0 imm24
  | .bkpt c imm16 =>
    0x01200070 ||| place 28 c.code ||| place 8 (imm16.extractLsb' 4 12) ||| place 0 (imm16.extractLsb' 0 4)
  | .undef c imm16 =>
    0x07F000F0 ||| place 28 c.code ||| place 8 (imm16.extractLsb' 4 12) ||| place 0 (imm16.extractLsb' 0 4)
  | .cdp c opc1 crn crd cp opc2 crm =>
    0x0E000000 ||| place 28 c.code ||| place 20 opc1 ||| place 16 crn ||| place 12 crd ||| place 8 cp ||| place 5 opc2 ||| place 0 crm
  | .ldc c p u n w rn crd cp imm8 =>
    0x0C100000 ||| place 28 c.code ||| flag 24 p ||| flag 23 u ||| flag 22 n ||| flag 21 w ||| place 16 rn ||| place 12 crd ||| place 8 cp ||| place 0 imm8
  | .stc c p u n w rn crd cp imm8 =>
    0x0C000000 ||| place 28 c.code ||| flag 24 p ||| flag 23 u ||| flag 22 n ||| flag 21 w ||| place 16 rn ||| place 12 crd ||| place 8 cp ||| place 0 imm8
  | .mcr c opc1 crn rd cp opc2 crm =>
    0x0E000010 ||| place 28 c.code ||| place 21 opc1 ||| place 16 crn ||| place 12 rd ||| place 8 cp ||| place 5 opc2 ||| place 0 crm
  | .mrc c opc1 crn rd cp opc2 crm =>
    0x0E100010 ||| place 28 c.code ||| place 21 opc1 ||| place 16 crn ||| place 12 rd ||| place 8 cp ||| place 5 opc2 ||| place 0 crm
  | .mcrr c rn rd cp opc crm =>
    0x0C400000 ||| place 28 c.code ||| place 16 rn ||| place 12 rd ||| place 8 cp ||| place 4 opc ||| place 0 crm
  | .mrrc c rn rd cp opc crm =>
    0x0C500000 ||| place 28 c.code ||| place 16 rn ||| place 12 rd ||| place 8 cp ||| place 4 opc ||| place 0 crm
  | .cdp2 opc1 crn crd cp opc2 crm =>
    0xFE000000 ||| place 20 opc1 ||| place 16 crn ||| place 12 crd ||| place 8 cp ||| place 5 opc2 ||| place 0 crm
  | .ldc2 p u n w rn crd cp imm8 =>
    0xFC100000 ||| flag 24 p ||| flag 23 u ||| flag 22 n ||| flag 21 w ||| place 16 rn ||| place 12 crd ||| place 8 cp ||| place 0 imm8
  | .stc2 p u n w rn crd cp imm8 =>
    0xFC000000 ||| flag 24 p ||| flag 23 u ||| flag 22 n ||| flag 21 w ||| place 16 rn ||| place 12 crd ||| place 8 cp ||| place 0 imm8
  | .mcr2 opc1 crn rd cp opc2 crm =>
    0xFE000010 ||| place 21 opc1 ||| place 16 crn ||| place 12 rd ||| place 8 cp ||| place 5 opc2 ||| place 0 crm
  | .mrc2 opc1 crn rd cp opc2 crm =>
    0xFE100010 ||| place 21 opc1 ||| place 16 crn ||| place 12 rd ||| place 8 cp ||| place 5 opc2 ||| place 0 crm
  | .mcrr2 rn rd cp opc crm =>
    0xFC400000 ||| place 16 rn ||| place 12 rd ||| place 8 cp ||| place 4 opc ||| place 0 crm
  | .mrrc2 rn rd cp opc crm =>
    0xFC500000 ||| place 16 rn ||| place 12 rd ||| place 8 cp ||| place 4 opc ||| place 0 crm

end Sys2Proof
end

