-- ==== Sys2Proof/Config.lean ====
section
/-! DEFINITION. What an implementation fixes: the parameters of 00_scope.md R8 that a model takes as arguments, as plain
data, and the one family of free values. -/
namespace Sys2Proof

/-- `kind` of a memory access (20_memory.md R84). -/
inductive AccessKind where
  | read
  | write
  | fetch
deriving DecidableEq, Repr

/-- `priv` of a memory access (20_memory.md R84). -/
inductive Privilege where
  | user
  | privileged
deriving DecidableEq, Repr

/-- One line of the table that says where `MemPermitted(addr, n, kind, priv)` is false (R84): accesses of `bytes` bytes at
an address `lo` to `hi`, of this kind and privilege. Any answer of that oracle is some list of such lines. -/
structure AccessRule where
  lo    : Nat
  hi    : Nat
  bytes : Nat
  kind  : AccessKind
  priv  : Privilege
deriving DecidableEq, Repr

/-- One line of the table that says where `MemAborts(addr, n, kind)` is true (R84). -/
structure AbortRule where
  lo    : Nat
  hi    : Nat
  bytes : Nat
  kind  : AccessKind
deriving DecidableEq, Repr

/-- The parameters of 00_scope.md R8 that this model takes as arguments. They are held in the state as plain data and no
step changes them, so that a statement about every state is a statement for every value of them. -/
structure Platform where
  /-- `HighVectors`: the exception vectors stand at 0xFFFF0000 (R82). -/
  highVectors : Bool
  /-- `EE`: the value the CPSR E bit takes on exception entry (R548). -/
  ee : Bool
  /-- `StorePCOffset` is 12, not 8 (R434). -/
  storePc12 : Bool
  /-- `ERG - 3`, for the reservation granule 3 <= ERG <= 11 (R447). -/
  ergMinus3 : Fin 9
  /-- `JazellePresent` (R186). -/
  jazellePresent : Bool
  /-- `DebugOverridesBKPT` (R501). -/
  debugOverridesBkpt : Bool
  /-- Where `MemPermitted` is false (R84). -/
  forbidden : List AccessRule
  /-- Where `MemAborts` is true (R84). -/
  aborting : List AbortRule
deriving DecidableEq, Repr

/-- The parameters at the values R8 fixes, and for its OPEN ones at the defaults R8 names. `StorePCOffset` (8) and `ERG`
(3) have no default in R8. DESIGN CHOICE (notes/assumptions/9.md), unsafe: a statement that rests on these two values
says nothing of another implementation. -/
def Platform.default : Platform where
  highVectors := false
  ee := false
  storePc12 := false
  ergMinus3 := 0
  jazellePresent := false
  debugOverridesBkpt := false
  forbidden := []
  aborting := []

/-- The free values: the n-th value the spec leaves unknown (R91, R477, R549). It has no body, so nothing can be proved
of it but what holds for every value. DESIGN CHOICE (notes/assumptions/8.md), safe. -/
opaque Config.freeWord : Nat → Word

end Sys2Proof
end

