-- ==== Sys2Proof/Machine/State.lean ====
section
/-! DEFINITION. The state of the machine (10_state.md R30) as plain data, the reasons a step stops, and the state after
reset (R57, 70_reset_and_hazards.md R590). -/
namespace Sys2Proof.Machine

/-- The seven processor modes (10_state.md R33). -/
inductive Mode where
  | usr | fiq | irq | svc | abt | und | sys
deriving DecidableEq, Repr

/-- Memory: (address, byte) pairs, addresses strictly rising. An address not listed has no value, so no entry can equal
what an unlisted address reads as (20_memory.md R71, 10_state.md R57; notes/assumptions/5.md). -/
abbrev Memory := List Host.Cell

/-- The levels of the two interrupt request lines at one step (10_state.md R55). -/
structure Lines where
  irq : Bool
  fiq : Bool
deriving DecidableEq, Repr

/-- One instruction a coprocessor has executed: the instruction word and the words the processor sent with it. The list of
these is all a coprocessor can know, so any `cp_state` of 49_exception_coprocessor.md R510 is a function of it. -/
structure CpEvent where
  word : Word
  sent : List Word
deriving DecidableEq, Repr

/-- The arguments `w` and `cp_state` of the oracle functions of R510 that a line of a table is about: the words whose bits
under `mask` are `pattern`, in one state of the coprocessor or, with none, in every state. -/
structure CpKey where
  mask : Word
  pattern : Word
  state : Option (List CpEvent)
deriving DecidableEq, Repr

/-- One line of the table of `Accepts(n, w, cp_state, privileged)` (R510): there it is true. -/
structure CpAccept where
  key : CpKey
  priv : Privilege
deriving DecidableEq, Repr

/-- The values of the other oracle functions of R510 at one `(w, cp_state)`, of which an instruction uses its own: `first`
is the value of `MRC_val` and the first value of `MRRC_val`, `second` the second; `ldcMore + 1` is `LDC_len`;
`first :: more` are the words of `STC_val`. -/
structure CpReply where
  first : Word
  second : Word
  ldcMore : Nat
  more : List Word
deriving DecidableEq, Repr

/-- One line of the table of those values. -/
structure CpRule where
  key : CpKey
  reply : CpReply
deriving DecidableEq, Repr

/-- An attached coprocessor (R510): its `cp_state`, which is what it has executed, and its oracle functions as tables, the
first line that fits counting and `otherwise` where none does. No step changes the tables (notes/assumptions/11.md). -/
structure Coproc where
  history : List CpEvent
  accepts : List CpAccept
  replies : List CpRule
  otherwise : CpReply
deriving DecidableEq, Repr

/-- The state of the machine (R30). -/
structure State where
  /-- The 30 cells of R0 to R14 with their banked copies (10_state.md R32), numbered by `cell` in Machine/Ops.lean: 0 to 12
  are R0 to R12 (of every mode but FIQ from R8 up), 13 to 17 are R8_fiq to R12_fiq, then R13 and R14 of User (18, 19),
  Supervisor (20, 21), Abort (22, 23), Undefined (24, 25), IRQ (26, 27) and FIQ (28, 29). -/
  gpr : Vector Word 30
  /-- The address of the instruction to execute, `cur` (R38). R15 reads as it plus 8 (R37). -/
  pc : Word
  /-- The Current Program Status Register (R41). -/
  cpsr : Word
  /-- The Saved Program Status Registers (R46): 0 svc, 1 abt, 2 und, 3 irq, 4 fiq. -/
  spsr : Vector Word 5
  /-- The exclusive monitor (R54): `none` is `Open`, `some tag` is `Exclusive(tag)`. -/
  monitor : Option Word
  /-- Memory (R30, item 7). -/
  mem : Memory
  /-- The addresses the program has stored to since launch, strictly rising (20_memory.md R89). -/
  written : List Nat
  /-- The coprocessor attached under each number, or none (R53, R8 `Coproc(n)`). -/
  coprocs : Vector (Option Coproc) 16
  /-- The levels of the interrupt lines at this step and the next ones; deasserted when the list is empty (R55).
  The model's own form of an input (notes/assumptions/7.md). -/
  lines : List Lines
  /-- How many free values have been drawn: the model's own (notes/assumptions/8.md). -/
  freeCtr : Nat
  /-- The parameters of 00_scope.md R8, which no step changes (notes/assumptions/9.md). -/
  platform : Platform
deriving DecidableEq, Repr

/-- Why the machine stops with a fault. All but `unwrittenMemory` stand for UNPREDICTABLE (00_scope.md R17, D12): the model
gives the step no value. Each is safe: the hardware goes on in some way, and nothing is proved of it. -/
inductive Fault where
  /-- A word with the decode bits of an instruction that is none, by `step` (30_encoding.md R129). Safe. -/
  | unpredictableEncoding
  /-- R15 in a field where it is not allowed, by every meaning with such a field (10_state.md R35). Safe. -/
  | pcOperand
  /-- Registers that must differ are the same, by the long multiplies, LDRD, STREX, SWP, MRRC (93 section 2). Safe. -/
  | sameRegister
  /-- Writeback to a register that is also transferred, by the loads and stores (47_load_store.md R426). Safe. -/
  | writebackBase
  /-- Base register in the list with writeback, by the load multiples (48 R474, R476). Safe. -/
  | baseInList
  /-- Empty register list, by LDM and STM (48 R479). Safe. -/
  | emptyList
  /-- LDRD or STRD with Rd = R14 (47_load_store.md R435, R443). Safe. -/
  | doublewordR14
  /-- SPSR or exception return in a mode without an SPSR, by MRS, MSR, S = 1 with Rd = R15, LDM (3), SRS (10_state.md R46). Safe. -/
  | noSpsr
  /-- LDM (2), STM (2) in User or System mode, RFE in User mode (48 R475, R478, R480). Safe. -/
  | modeForbidden
  /-- A mode number that is none of the seven, by MSR, CPS, SRS and the exception returns (10_state.md R33). Safe. -/
  | illegalMode
  /-- A reserved PSR bit written as 1, by MSR and RFE (10_state.md R50). Safe. -/
  | reservedPsrBit
  /-- T or J set in an MSR of the CPSR in a privileged mode (46_status_register.md R403). Safe. -/
  | stateBits
  /-- An inconsistent CPS (46_status_register.md R406). Safe. -/
  | badCps
  /-- BKPT with a condition other than AL (49 R501). Safe. -/
  | bkptCondition
  /-- Sequential advance from 0xFFFFFFFC, by every instruction (10_state.md R39); a B to a target past either end of the
  address space (41_branch.md R181). Safe. -/
  | pcWrap
  /-- An access that crosses from 0xFFFFFFFF to 0, by every data access to memory (20_memory.md R83). Safe. -/
  | addressWrap
  /-- An interworking write of a target with bits[1:0] = 0b10 to the PC (10_state.md R40). Safe. -/
  | interworkAlign
  /-- A read or fetch of a byte that has no value, by every access to memory (10_state.md R36, R57). Safe. -/
  | unwrittenMemory
deriving DecidableEq, Repr

/-- Why the machine has no meaning for a step (`refuse`, 00_scope.md R17). Each is safe: nothing is proved past it. -/
inductive Refusal where
  /-- An instruction whose meaning is not written yet, by `exec`. Safe. -/
  | notModelled (mnemonic : String)
  /-- A fetch with CPSR.T = 1, by `step` (40_condition_execution.md R166, D2). Safe. -/
  | thumbState
  /-- A fetch with CPSR.J = 1, by `step` (R166, D2). Safe. -/
  | jazelleState
  /-- A fetch of a byte the program has written, by `step` (20_memory.md R89, D8). Safe. -/
  | fetchWritten
  /-- BKPT where debug hardware overrides it (49 R501, D15). Safe. -/
  | debugOverride
  /-- BXJ where Jazelle is present (41_branch.md R186, D21). Safe. -/
  | jazelleEntry
deriving DecidableEq, Repr

/-- The outcome of an instruction or of a step. -/
abbrev Out := Host.Outcome State Fault Refusal

/-- The CPSR after reset (R57, R590): Supervisor mode, A = I = F = 1, T = J = 0, E = `EE` = 0, reserved bits 0; and N, Z,
C, V, Q and GE 0, which the spec leaves unknown. DESIGN CHOICE (notes/assumptions/2.md), unsafe. -/
def resetCpsr : Word := 0x000001D3

/-- The machine right after reset (R57, R590): execution at the reset vector in Supervisor mode, the monitor `Open`,
memory with nothing listed, no coprocessor attached. The registers and SPSRs, which the spec leaves unknown, are 0.
DESIGN CHOICE (notes/assumptions/1.md, 3.md), unsafe. -/
def State.reset : State where
  gpr := Vector.replicate 30 0
  pc := 0
  cpsr := resetCpsr
  spsr := Vector.replicate 5 0
  monitor := none
  mem := []
  written := []
  coprocs := Vector.replicate 16 none
  lines := []
  freeCtr := 0
  platform := Platform.default

end Sys2Proof.Machine
end

