-- ==== Sys2Proof/Machine/Memory.lean ====
section
/-! DEFINITION. The byte map: reading and writing one byte, runs of bytes, and the two byte orders (20_memory.md R70 to
R76). -/
namespace Sys2Proof.Machine

/-- The byte at an address; none where nothing was ever put (10_state.md R57; notes/assumptions/5.md). -/
def Memory.read : Memory → Nat → Option Byte
  | [], _ => none
  | (a, b) :: m, x => if x = a then some b else Memory.read m x

/-- Put a byte at an address. -/
def Memory.write : Memory → Nat → Byte → Memory
  | [], x, v => [(x, v)]
  | (a, b) :: m, x, v =>
    if x < a then (x, v) :: (a, b) :: m
    else if x = a then (x, v) :: m
    else (a, b) :: Memory.write m x v

/-- The entries are addresses of the 4GB space (R70, R71) above `lo`, strictly rising. -/
def Memory.above : Nat → Memory → Bool
  | _, [] => true
  | lo, (a, _) :: m => decide (lo ≤ a) && decide (a < 2 ^ 32) && Memory.above (a + 1) m

/-- The canonical form: addresses of the 4GB space, strictly rising. -/
def Memory.wf (m : Memory) : Bool := Memory.above 0 m

/-- The `n` bytes from an address up, if all have a value. -/
def Memory.readBytes (m : Memory) : Nat → Nat → Option (List Byte)
  | _, 0 => some []
  | a, n + 1 =>
    match Memory.read m a, Memory.readBytes m (a + 1) n with
    | some b, some bs => some (b :: bs)
    | _, _ => none

/-- Put bytes from an address up. -/
def Memory.writeBytes (m : Memory) : Nat → List Byte → Memory
  | _, [] => m
  | a, b :: bs => Memory.writeBytes (Memory.write m a b) (a + 1) bs

/-- The set of written addresses, strictly rising (20_memory.md R89), with one more. -/
def addAddr : List Nat → Nat → List Nat
  | [], x => [x]
  | a :: l, x => if x < a then x :: a :: l else if x = a then a :: l else a :: addAddr l x

/-- The set of written addresses with `n` more from `a` up. -/
def addAddrs (l : List Nat) : Nat → Nat → List Nat
  | _, 0 => l
  | a, n + 1 => addAddrs (addAddr l a) (a + 1) n

/-- The addresses are strictly rising, from `lo` up. -/
def risingFrom : Nat → List Nat → Bool
  | _, [] => true
  | lo, a :: l => decide (lo ≤ a) && risingFrom (a + 1) l

/-- The value whose bits[8k+7:8k] are byte k of the list (R74, E == 0). -/
def wordOfLittle : List Byte → Word
  | [] => 0
  | b :: bs => b.setWidth 32 ||| (wordOfLittle bs <<< 8)

/-- The low `n` bytes of a value, bits[8k+7:8k] as byte k (R74, E == 0). -/
def littleOfWord (v : Word) : Nat → List Byte
  | 0 => []
  | n + 1 => v.setWidth 8 :: littleOfWord (v >>> 8) n

/-- The value of bytes read from rising addresses, in the data byte order of CPSR.E (R74). -/
def assemble (e : Bool) (bs : List Byte) : Word := wordOfLittle (if e then bs.reverse else bs)

/-- The `n` bytes of a value as they are stored at rising addresses, in the data byte order of CPSR.E (R74). -/
def disassemble (e : Bool) (n : Nat) (v : Word) : List Byte :=
  if e then (littleOfWord v n).reverse else littleOfWord v n

end Sys2Proof.Machine
end

