-- ==== Sys2Proof/Machine/Flags.lean ====
section
/-! DEFINITION. The program status registers: their fields, the condition test, the flag computations of
00_scope.md R13 and 42_data_processing.md R206 and R207, and saturation. -/
namespace Sys2Proof.Machine

/-! ### Bits and fields of a status register (10_state.md R41) -/

/-- A word with one bit set to a value. -/
def withBit (p : Word) (i : Nat) (b : Bool) : Word :=
  if b then p ||| ((1 : Word) <<< i) else p &&& ~~~((1 : Word) <<< i)

/-- A word with the bits under a mask taken from another. -/
def withMask (p mask v : Word) : Word := (p &&& ~~~mask) ||| (v &&& mask)

/-- N (R41, R42). -/
def State.n (s : State) : Bool := s.cpsr.getLsbD 31
/-- Z (R41, R42). -/
def State.z (s : State) : Bool := s.cpsr.getLsbD 30
/-- C (R41, R42). -/
def State.c (s : State) : Bool := s.cpsr.getLsbD 29
/-- V (R41, R42). -/
def State.v (s : State) : Bool := s.cpsr.getLsbD 28
/-- Q (R41, R43). -/
def State.q (s : State) : Bool := s.cpsr.getLsbD 27
/-- GE[3:0] (R41, R44). -/
def State.ge (s : State) : BitVec 4 := s.cpsr.extractLsb' 16 4
/-- J (R41, R48). -/
def State.j (s : State) : Bool := s.cpsr.getLsbD 24
/-- E (R41, R45). -/
def State.e (s : State) : Bool := s.cpsr.getLsbD 9
/-- A (R41, R47). -/
def State.a (s : State) : Bool := s.cpsr.getLsbD 8
/-- I (R41, R47). -/
def State.i (s : State) : Bool := s.cpsr.getLsbD 7
/-- F (R41, R47). -/
def State.f (s : State) : Bool := s.cpsr.getLsbD 6
/-- T (R41, R48). -/
def State.t (s : State) : Bool := s.cpsr.getLsbD 5

/-- The mode bits of a status register (R41, R49). -/
def modeBits (p : Word) : BitVec 5 := p.setWidth 5

/-- The number of a mode (R33). -/
def Mode.number : Mode → BitVec 5
  | .usr => 0b10000 | .fiq => 0b10001 | .irq => 0b10010 | .svc => 0b10011 | .abt => 0b10111 | .und => 0b11011
  | .sys => 0b11111

/-- The mode of a number; none for the others, which are illegal (R33). -/
def modeOfNumber (b : BitVec 5) : Option Mode :=
  if b = 0b10000 then some .usr else if b = 0b10001 then some .fiq else if b = 0b10010 then some .irq
  else if b = 0b10011 then some .svc else if b = 0b10111 then some .abt else if b = 0b11011 then some .und
  else if b = 0b11111 then some .sys else none

/-- A status register with other mode bits. -/
def withMode (p : Word) (m : Mode) : Word := withMask p 0x1F (m.number.setWidth 32)

/-- The current mode (R49). An illegal number, which no step produces (`Inv`), reads as User (notes/assumptions/25.md). -/
def State.mode (s : State) : Mode := (modeOfNumber (modeBits s.cpsr)).getD .usr

/-- `InAPrivilegedMode()` (00_scope.md R19). -/
def State.privileged (s : State) : Bool := s.mode != .usr

/-- The privilege of the current mode's accesses (R15). -/
def State.privilege (s : State) : Privilege := if s.privileged then .privileged else .user

/-- `UnallocMask` (46_status_register.md R401; 10_state.md R50). -/
def unallocMask : Word := 0x06F0FC00
/-- `UserMask` (R401). -/
def userMask : Word := 0xF80F0200
/-- `PrivMask` (R401). -/
def privMask : Word := 0x000001DF
/-- `StateMask` (R401). -/
def stateMask : Word := 0x01000020

/-! ### Conditions -/

/-- `ConditionPassed` (40_condition_execution.md R161), on the flags before the instruction. -/
def conditionPassed (c : Cond) (s : State) : Bool :=
  match c with
  | .eq => s.z
  | .ne => !s.z
  | .cs => s.c
  | .cc => !s.c
  | .mi => s.n
  | .pl => !s.n
  | .vs => s.v
  | .vc => !s.v
  | .hi => s.c && !s.z
  | .ls => !s.c || s.z
  | .ge => s.n == s.v
  | .lt => s.n != s.v
  | .gt => !s.z && (s.n == s.v)
  | .le => s.z || (s.n != s.v)
  | .al => true

/-! ### Flag computations -/

/-- `CarryFrom(a + b + c)` (00_scope.md R13). -/
def carryFrom (a b : Word) (c : Bool) : Bool := decide (2 ^ 32 ≤ a.toNat + b.toNat + c.toNat)

/-- `BorrowFrom(a - b - c)` (R13). -/
def borrowFrom (a b : Word) (c : Bool) : Bool := decide (a.toNat < b.toNat + c.toNat)

/-- An integer is outside the signed 32-bit range -2^31 .. 2^31-1. -/
def outside32 (r : Int) : Bool := decide (r < -2 ^ 31 ∨ 2 ^ 31 ≤ r)

/-- `OverflowFrom(a + b + c)` (R13). -/
def overflowFromAdd (a b : Word) (c : Bool) : Bool := outside32 (a.toInt + b.toInt + (c.toNat : Int))

/-- `OverflowFrom(a - b - c)` (R13). -/
def overflowFromSub (a b : Word) (c : Bool) : Bool := outside32 (a.toInt - b.toInt - (c.toNat : Int))

/-- A status register with other N, Z, C, V. -/
def withNzcv (p : Word) (n z c v : Bool) : Word :=
  withBit (withBit (withBit (withBit p 31 n) 30 z) 29 c) 28 v

/-- The flags of a 32-bit result: N is its bit 31, Z says it is 0; C and V as given (42_data_processing.md R206, R207). -/
def State.setFlags (s : State) (result : Word) (c v : Bool) : State :=
  { s with cpsr := withNzcv s.cpsr (result.getLsbD 31) (result == 0) c v }

/-- N and Z of a 64-bit result, C and V unchanged (43_multiply.md R284). -/
def State.setFlags64 (s : State) (result : BitVec 64) : State :=
  { s with cpsr := withNzcv s.cpsr (result.getLsbD 63) (result == 0) s.c s.v }

/-- Q is set, never cleared (10_state.md R43). -/
def State.setQ (s : State) (saturated : Bool) : State :=
  { s with cpsr := if saturated then withBit s.cpsr 27 true else s.cpsr }

/-- GE[3:0] written (10_state.md R44). -/
def State.setGe (s : State) (g : BitVec 4) : State :=
  { s with cpsr := withMask s.cpsr 0x000F0000 (g.setWidth 32 <<< 16) }

/-! ### Saturation -/

/-- `SignedSat(i, n)` (00_scope.md R13). -/
def signedSat (i : Int) (n : Nat) : Int :=
  if i < -2 ^ (n - 1) then -2 ^ (n - 1) else if 2 ^ (n - 1) - 1 < i then 2 ^ (n - 1) - 1 else i

/-- `SignedDoesSat(i, n)` (R13). -/
def signedDoesSat (i : Int) (n : Nat) : Bool := signedSat i n != i

/-- `UnsignedSat(i, n)` (R13). -/
def unsignedSat (i : Int) (n : Nat) : Int :=
  if i < 0 then 0 else if 2 ^ n - 1 < i then 2 ^ n - 1 else i

/-- `UnsignedDoesSat(i, n)` (R13). -/
def unsignedDoesSat (i : Int) (n : Nat) : Bool := unsignedSat i n != i

end Sys2Proof.Machine
end

