-- ==== Sys2Proof/Machine/Ops.lean ====
section
/-! DEFINITION. The named operations every meaning is built from: registers and their banks, control transfer, taking an
exception and returning from one, memory access, free values, the interrupt lines, the exclusive monitor, coprocessors. -/
namespace Sys2Proof.Machine

/-! ### General-purpose registers (10_state.md R31, R32, R37) -/

/-- Which of the six copies of R13 and R14 a mode has (R32): 0 User and System, 1 svc, 2 abt, 3 und, 4 irq, 5 fiq. -/
def Mode.bank : Mode → Nat
  | .usr => 0 | .sys => 0 | .svc => 1 | .abt => 2 | .und => 3 | .irq => 4 | .fiq => 5

/-- The number of the cell that Rr of a mode is (R32), for r = 0 to 14. -/
def cellNumber (m : Mode) (r : Nat) : Nat :=
  if r < 8 then r
  else if r < 13 then (if m = .fiq then r + 5 else r)
  else 18 + 2 * m.bank + (r - 13)

/-- The cell that a register of a mode is (R32). R15 is no cell; `cell` is not asked for it. -/
def cell (m : Mode) (r : Reg) : Fin 30 := Fin.ofNat 30 (cellNumber m r.toNat)

/-- The value of Rr of a mode; R15 reads as the instruction's address plus 8 (00_scope.md R14; 10_state.md R37). -/
def State.regOf (s : State) (m : Mode) (r : Reg) : Word :=
  if r = 15 then s.pc + 8 else s.gpr.get (cell m r)

/-- Write Rr of a mode, r = 0 to 14. Writing R15 is a control transfer, never done here (00_scope.md R14). -/
def State.setRegOf (s : State) (m : Mode) (r : Reg) (v : Word) : State :=
  { s with gpr := if r = 15 then s.gpr else s.gpr.set (cell m r) v }

/-- `x[r]` (00_scope.md R14). -/
def State.reg (s : State) (r : Reg) : Word := s.regOf s.mode r

/-- `x[r] <- v` for r = 0 to 14 (00_scope.md R14). -/
def State.setReg (s : State) (r : Reg) (v : Word) : State := s.setRegOf s.mode r v

/-- Write the registers of a mode, the first value to the first register. -/
def State.setRegsOf (s : State) (m : Mode) : List Reg → List Word → State
  | r :: rs, v :: vs => (s.setRegOf m r v).setRegsOf m rs vs
  | _, _ => s

/-- Some field of the list names R15. -/
def anyPc (rs : List Reg) : Bool := rs.any (fun r => r == 15)

/-- R15 in a field where it is not allowed is UNPREDICTABLE (10_state.md R35). -/
def unlessPc (rs : List Reg) (o : Out) : Out := if anyPc rs then .fault .pcOperand else o

/-- Two fields that must name different registers (93_implementation_defined.md section 2). -/
def unlessSame (a b : Reg) (o : Out) : Out := if a = b then .fault .sameRegister else o

/-! ### Saved program status registers (R46) -/

/-- The index of a mode's SPSR; User and System have none (10_state.md R32, R46). -/
def Mode.spsrIndex : Mode → Option (Fin 5)
  | .usr => none | .sys => none
  | .svc => some 0 | .abt => some 1 | .und => some 2 | .irq => some 3 | .fiq => some 4

/-- The SPSR of the current mode, if it has one (`CurrentModeHasSPSR()`, 00_scope.md R19). -/
def State.spsr? (s : State) : Option Word := s.mode.spsrIndex.map s.spsr.get

/-- Write the SPSR of a mode that has one. -/
def State.setSpsrOf (s : State) (m : Mode) (v : Word) : State :=
  { s with
    spsr := match m.spsrIndex with
      | some k => s.spsr.set k v
      | none => s.spsr }

/-! ### Control transfer -/

/-- The next instruction follows in memory; past 0xFFFFFFFC that is UNPREDICTABLE (10_state.md R38, R39). -/
def advance (s : State) : Out :=
  if s.pc.toNat + 4 < 2 ^ 32 then .next { s with pc := s.pc + 4 } else .fault .pcWrap

/-- An instruction with a `cond` field does nothing but advance when its condition fails, whatever it is
(40_condition_execution.md R162, 00_scope.md R20). -/
def whenCond (c : Cond) (s : State) (o : Out) : Out :=
  if conditionPassed c s then o else advance s

/-- Control goes to an address (00_scope.md R18). -/
def State.jump (s : State) (target : Word) : State := { s with pc := target }

/-- An interworking write of the PC: T takes bit 0; bits[1:0] = 0b10 is UNPREDICTABLE (10_state.md R40). -/
def interwork (s : State) (v : Word) : Out :=
  if v.extractLsb' 0 2 = 0b10 then .fault .interworkAlign
  else .next { s with cpsr := withBit s.cpsr 5 (v.getLsbD 0), pc := v &&& 0xFFFFFFFE }

/-! ### Exceptions (60_exceptions.md) -/

/-- The exceptions a step can take (R541). Reset is no instruction's and no input's; it is `State.reset` (R552, R605). -/
inductive ExceptionKind where
  | undefinedInstruction | softwareInterrupt | prefetchAbort | dataAbort | irq | fiq
deriving DecidableEq, Repr

/-- The mode entered (R541). -/
def ExceptionKind.mode : ExceptionKind → Mode
  | .undefinedInstruction => .und | .softwareInterrupt => .svc | .prefetchAbort => .abt | .dataAbort => .abt
  | .irq => .irq | .fiq => .fiq

/-- The vector offset (R541). -/
def ExceptionKind.offset : ExceptionKind → Word
  | .undefinedInstruction => 0x04 | .softwareInterrupt => 0x08 | .prefetchAbort => 0x0C | .dataAbort => 0x10
  | .irq => 0x18 | .fiq => 0x1C

/-- What R14 of the new mode receives, relative to the address of the instruction (R541, R548). -/
def ExceptionKind.link : ExceptionKind → Word
  | .undefinedInstruction => 4 | .softwareInterrupt => 4 | .prefetchAbort => 4 | .dataAbort => 8 | .irq => 4 | .fiq => 4

/-- F is set on entry (R541). -/
def ExceptionKind.setsF : ExceptionKind → Bool
  | .undefinedInstruction => false | .softwareInterrupt => false | .prefetchAbort => false | .dataAbort => false
  | .irq => false | .fiq => true

/-- A is set on entry (R541). -/
def ExceptionKind.setsA : ExceptionKind → Bool
  | .undefinedInstruction => false | .softwareInterrupt => false | .prefetchAbort => true | .dataAbort => true
  | .irq => true | .fiq => true

/-- `VectorBase` (R541, 20_memory.md R82). -/
def vectorBase (p : Platform) : Word := if p.highVectors then 0xFFFF0000 else 0x00000000

/-- The CPSR after entry (R548): the new mode, T = J = 0, I = 1, F and A as the table says, E = `EE`; the rest kept. -/
def entryPsr (k : ExceptionKind) (ee : Bool) (old : Word) : Word :=
  let p := withMode old k.mode
  let p := withBit (withBit p 5 false) 24 false
  let p := withBit p 7 true
  let p := if k.setsF then withBit p 6 true else p
  let p := if k.setsA then withBit p 8 true else p
  withBit p 9 ee

/-- Exception entry (R548): R14 and the SPSR of the new mode are written, then the CPSR and the PC. -/
def takeException (k : ExceptionKind) (s : State) : State :=
  { (s.setRegOf k.mode 14 (s.pc + k.link)).setSpsrOf k.mode s.cpsr with
    cpsr := entryPsr k s.platform.ee s.cpsr
    pc := vectorBase s.platform + k.offset }

/-- Raise an exception: the step ends with its entry (00_scope.md R16). -/
def raise (k : ExceptionKind) (s : State) : Out := .next (takeException k s)

/-- An address aligned for the state a status register selects (10_state.md R40). -/
def alignFor (psr v : Word) : Word := v &&& (if psr.getLsbD 5 then 0xFFFFFFFE else 0xFFFFFFFC)

/-- Exception return (R550): the whole CPSR is restored, the PC aligned by the restored T. An illegal mode is
UNPREDICTABLE (10_state.md R33). -/
def exceptionReturn (s : State) (psr target : Word) : Out :=
  match modeOfNumber (modeBits psr) with
  | none => .fault .illegalMode
  | some _ => .next { s with cpsr := psr, pc := alignFor psr target }

/-! ### Free values -/

/-- Draw a free value (notes/assumptions/8.md). -/
def State.freeValue (s : State) : Word := Config.freeWord s.freeCtr

/-- The state after drawing one. -/
def State.drawn (s : State) : State := { s with freeCtr := s.freeCtr + 1 }

/-- Registers of a mode become unknown (60_exceptions.md R549). -/
def State.freeRegs (s : State) (m : Mode) : List Reg → State
  | [] => s
  | r :: rs => ((s.setRegOf m r s.freeValue).drawn).freeRegs m rs

/-! ### Memory access (20_memory.md) -/

/-- What an access gives: a result; a `DataAbort` at the access of this number, counted from 0, in the instruction; or a
fault of the model. -/
inductive Access (α : Type) where
  | ok (a : α)
  | abort (done : Nat)
  | fault (f : Fault)
deriving DecidableEq, Repr

/-- `MemPermitted(addr, n, kind, priv)` (R84). -/
def memPermitted (p : Platform) (a n : Nat) (k : AccessKind) (v : Privilege) : Bool :=
  !p.forbidden.any (fun r => decide (r.lo ≤ a) && decide (a ≤ r.hi) && r.bytes == n && r.kind == k && r.priv == v)

/-- `MemAborts(addr, n, kind)` (R84). -/
def memAborts (p : Platform) (a n : Nat) (k : AccessKind) : Bool :=
  p.aborting.any (fun r => decide (r.lo ≤ a) && decide (a ≤ r.hi) && r.bytes == n && r.kind == k)

/-- A data access raises `DataAbort` (R84), or does because its address is not a multiple of its size
(R77; notes/assumptions/12.md). -/
def State.aborts (s : State) (v : Privilege) (k : AccessKind) (n : Nat) (a : Word) : Bool :=
  decide (a.toNat % n ≠ 0) || !memPermitted s.platform a.toNat n k v || memAborts s.platform a.toNat n k

/-- The `n` bytes from an address up cross from 0xFFFFFFFF to 0, which is UNPREDICTABLE (R83). -/
def crossesTop (a : Word) (n : Nat) : Bool := decide (2 ^ 32 < a.toNat + n)

/-- `MemRead(addr, n)` for n = 1, 2, 4, zero-extended to a word (00_scope.md R15; R74, R77, R83, R84). -/
def State.load (s : State) (v : Privilege) (n : Nat) (a : Word) : Access Word :=
  if crossesTop a n then .fault .addressWrap
  else if s.aborts v .read n a then .abort 0
  else
    match s.mem.readBytes a.toNat n with
    | some bs => .ok (assemble s.e bs)
    | none => .fault .unwrittenMemory

/-- Put the low `n` bytes of a value in memory, in the order of CPSR.E, and note that the program wrote them
(R74, R89). -/
def State.putBytes (s : State) (n : Nat) (a v : Word) : State :=
  { s with
    mem := s.mem.writeBytes a.toNat (disassemble s.e n v)
    written := addAddrs s.written a.toNat n }

/-- `MemWrite(addr, n, v)` for n = 1, 2, 4 (00_scope.md R15; R74, R77, R83, R84). -/
def State.store (s : State) (v : Privilege) (n : Nat) (a w : Word) : Access State :=
  if crossesTop a n then .fault .addressWrap else if s.aborts v .write n a then .abort 0 else .ok (s.putBytes n a w)

/-- Word reads at rising addresses (R91): the values, or what stopped them. -/
def State.loadWords (s : State) (v : Privilege) : Word → Nat → Access (List Word)
  | _, 0 => .ok []
  | a, k + 1 =>
    match s.load v 4 a with
    | .abort _ => .abort 0
    | .fault f => .fault f
    | .ok w =>
      match s.loadWords v (a + 4) k with
      | .ok ws => .ok (w :: ws)
      | .abort d => .abort (d + 1)
      | .fault f => .fault f

/-- Word writes at rising addresses (R91): the state after them, or what stopped them. -/
def State.storeWords (s : State) (v : Privilege) : Word → List Word → Access State
  | _, [] => .ok s
  | a, w :: ws =>
    match s.store v 4 a w with
    | .abort _ => .abort 0
    | .fault f => .fault f
    | .ok s' =>
      match s'.storeWords v (a + 4) ws with
      | .ok t => .ok t
      | .abort d => .abort (d + 1)
      | .fault f => .fault f

/-- Words of memory become unknown (R91, 60_exceptions.md R549). -/
def State.freeWords (s : State) : Word → Nat → State
  | _, 0 => s
  | a, k + 1 => ((s.putBytes 4 a s.freeValue).drawn).freeWords (a + 4) k

/-- `MemRead` of `k` words from an address up (R83, R91). -/
def State.loadBlock (s : State) (a : Word) (k : Nat) : Access (List Word) :=
  if crossesTop a (4 * k) then .fault .addressWrap else s.loadWords s.privilege a k

/-- `MemWrite` of words from an address up (R83, R91). -/
def State.storeBlock (s : State) (a : Word) (ws : List Word) : Access State :=
  if crossesTop a (4 * ws.length) then .fault .addressWrap else s.storeWords s.privilege a ws

/-- Go on with the result of a load; a `DataAbort` changes no register (47_load_store.md R424). -/
def afterLoad {α : Type} (s : State) (r : Access α) (k : α → Out) : Out :=
  match r with
  | .ok a => k a
  | .abort _ => raise .dataAbort s
  | .fault f => .fault f

/-- Go on with the state after a run of word writes from `a` up; after a `DataAbort` the words already written are
unknown (R91, 60_exceptions.md R549; notes/assumptions/13.md). -/
def afterStore (s : State) (a : Word) (r : Access State) (k : State → Out) : Out :=
  match r with
  | .ok t => k t
  | .abort d => raise .dataAbort (s.freeWords a d)
  | .fault f => .fault f

/-- Rr of a mode is another register than the base register, which is one of the current mode: the two may have one number
and be banked copies of it (10_state.md R32). R15 as the base is no cell. -/
def State.notBase (s : State) (m : Mode) (base r : Reg) : Bool := base == 15 || cell m r != cell s.mode base

/-- The registers of a mode that a load of several has already loaded become unknown; the base register keeps its value
and the PC is not loaded (60_exceptions.md R549; notes/assumptions/13.md). -/
def abortedLoad (s : State) (m : Mode) (base : Reg) (loaded : List Reg) : Out :=
  raise .dataAbort (s.freeRegs m (loaded.filter (fun r => r != 15 && s.notBase m base r)))

/-! ### The exclusive monitor (10_state.md R54) -/

/-- The tag of an address: its low `ERG` bits cleared (R54). -/
def monitorTag (p : Platform) (a : Word) : Word :=
  (a >>> (p.ergMinus3.val + 3)) <<< (p.ergMinus3.val + 3)

/-! ### Interrupt inputs (60_exceptions.md R546) -/

/-- The levels of the lines at this step; both deasserted when the list is empty (notes/assumptions/7.md). -/
def State.linesNow (s : State) : Lines :=
  match s.lines with
  | l :: _ => l
  | [] => { irq := false, fiq := false }

/-- The state with the lines of this step consumed. -/
def State.tick (s : State) : State := { s with lines := s.lines.tail }

/-- The interrupt to take before an instruction, if any: FIQ before IRQ (R546, R547). -/
def State.interrupt (s : State) : Option ExceptionKind :=
  if s.linesNow.fiq && !s.f then some .fiq
  else if s.linesNow.irq && !s.i then some .irq
  else none

/-! ### Coprocessors (49_exception_coprocessor.md R510) -/

/-- A coprocessor number as an index. -/
def cpIndex (cp : CpField) : Fin 16 := cp.toFin

/-- A line of a coprocessor's tables is about a word in a state. -/
def CpKey.covers (k : CpKey) (word : Word) (state : List CpEvent) : Bool :=
  word &&& k.mask == k.pattern && (k.state == none || k.state == some state)

/-- `Accepts(n, w, cp_state, privileged)` (R510). -/
def Coproc.takes (p : Coproc) (word : Word) (v : Privilege) : Bool :=
  p.accepts.any (fun a => a.key.covers word p.history && a.priv == v)

/-- The values of the other oracle functions at `(w, cp_state)` (R510). -/
def Coproc.reply (p : Coproc) (word : Word) : CpReply :=
  match p.replies.find? (fun r => r.key.covers word p.history) with
  | some r => r.reply
  | none => p.otherwise

/-- What a coprocessor answers to an instruction word offered to it: its values, or none where it is absent or does not
accept the word (R510, R530). -/
def State.cpReply (s : State) (cp : CpField) (word : Word) : Option CpReply :=
  match s.coprocs.get (cpIndex cp) with
  | some p => if p.takes word s.privilege then some (p.reply word) else none
  | none => none

/-- The coprocessor has executed an instruction, with these words sent to it: the new `cp_state`. -/
def State.cpDone (s : State) (cp : CpField) (word : Word) (sent : List Word) : State :=
  { s with
    coprocs := s.coprocs.set (cpIndex cp)
      ((s.coprocs.get (cpIndex cp)).map (fun p => { p with history := p.history ++ [⟨word, sent⟩] })) }

/-- Offer an instruction word to a coprocessor (R510, R511): rejected or absent, it is an Undefined Instruction exception
before any other effect; accepted, it goes on with the answer. -/
def offer (cp : CpField) (word : Word) (s : State) (k : CpReply → Out) : Out :=
  match s.cpReply cp word with
  | some r => k r
  | none => raise .undefinedInstruction s

/-! ### Fetch (20_memory.md R75; 40_condition_execution.md R166) -/

/-- What fetching the instruction at the PC gives. -/
inductive Fetched where
  | word (w : Word)
  | abort
  | written
  | unwritten
deriving DecidableEq, Repr

/-- `Fetch(cur)`: it can abort (60_exceptions.md R544); a byte the program has written is refused (R89); a byte with no
value faults. The order is fixed by notes/assumptions/32.md. -/
def State.fetch (s : State) : Fetched :=
  if !memPermitted s.platform s.pc.toNat 4 .fetch s.privilege || memAborts s.platform s.pc.toNat 4 .fetch then .abort
  else if (List.range 4).any (fun k => s.written.contains (s.pc.toNat + k)) then .written
  else
    match s.mem.readBytes s.pc.toNat 4 with
    | some bs => .word (wordOfLittle bs)
    | none => .unwritten

/-- Step 5 of R166 for a word that is no instruction: a word with a condition that fails does nothing. -/
def whenWordCond (w : Word) (s : State) (o : Out) : Out :=
  if field w 28 4 = 0b1111 then o else whenCond (Cond.ofCode (field w 28 4)) s o

end Sys2Proof.Machine
end

