-- ==== Sys2Proof/Machine/Operands.lean ====
section
/-! DEFINITION. The operand forms: the shifter operand (42_data_processing.md R201 to R204), the sixteen data-processing
operations (R200, R206, R207), the addressing modes of the loads and stores (47_load_store.md R421 to R424;
48_load_store_multiple_semaphore.md R471 to R473; 49_exception_coprocessor.md R520), halfwords and rotations. -/
namespace Sys2Proof.Machine

/-! ### The shifter operand -/

/-- `(so, sco)`: the second operand and the shifter carry-out (R201). -/
structure Shifted where
  value : Word
  carry : Bool
deriving DecidableEq, Repr

/-- `v ROR n` (00_scope.md R12). -/
def ror (v : Word) (n : Nat) : Word := v.rotateRight n

/-- The immediate shifter operand (R201): the byte rotated right by twice `rot`. -/
def shifterImm (c : Bool) (rot : BitVec 4) (imm8 : BitVec 8) : Shifted :=
  let so := ror (imm8.setWidth 32) (2 * rot.toNat)
  ⟨so, if rot = 0 then c else so.getLsbD 31⟩

/-- 32 copies of bit 31. -/
def signWord (v : Word) : Word := if v.getLsbD 31 then 0xFFFFFFFF else 0

/-- `Rm, RRX` (R203). -/
def rrx (c : Bool) (rm : Word) : Word := (if c then 0x80000000 else 0) ||| (rm >>> 1)

/-- A register shifted by an immediate (R202, R203): LSR and ASR by 0 mean 32, ROR by 0 means RRX. -/
def shiftImm (c : Bool) (rm : Word) (ty : ShiftType) (imm5 : BitVec 5) : Shifted :=
  let n := imm5.toNat
  match ty with
  | .lsl => if n = 0 then ⟨rm, c⟩ else ⟨rm <<< n, rm.getLsbD (32 - n)⟩
  | .lsr => if n = 0 then ⟨0, rm.getLsbD 31⟩ else ⟨rm >>> n, rm.getLsbD (n - 1)⟩
  | .asr => if n = 0 then ⟨signWord rm, rm.getLsbD 31⟩ else ⟨rm.sshiftRight n, rm.getLsbD (n - 1)⟩
  | .ror => if n = 0 then ⟨rrx c rm, rm.getLsbD 0⟩ else ⟨ror rm n, rm.getLsbD (n - 1)⟩

/-- A register shifted by the bottom byte `n` of a register (R204). -/
def shiftReg (c : Bool) (rm : Word) (ty : ShiftType) (n : Nat) : Shifted :=
  if n = 0 then ⟨rm, c⟩
  else
    match ty with
    | .lsl =>
      if n < 32 then ⟨rm <<< n, rm.getLsbD (32 - n)⟩
      else if n = 32 then ⟨0, rm.getLsbD 0⟩
      else ⟨0, false⟩
    | .lsr =>
      if n < 32 then ⟨rm >>> n, rm.getLsbD (n - 1)⟩
      else if n = 32 then ⟨0, rm.getLsbD 31⟩
      else ⟨0, false⟩
    | .asr => if n < 32 then ⟨rm.sshiftRight n, rm.getLsbD (n - 1)⟩ else ⟨signWord rm, rm.getLsbD 31⟩
    | .ror => if n % 32 = 0 then ⟨rm, rm.getLsbD 31⟩ else ⟨ror rm (n % 32), rm.getLsbD (n % 32 - 1)⟩

/-- The bottom byte of a register, the amount of a register-specified shift (R204). -/
def bottomByte (v : Word) : Nat := v.toNat % 256

/-! ### The data-processing operations -/

/-- The sixteen operations (R200). -/
inductive DpOp where
  | and | eor | sub | rsb | add | adc | sbc | rsc | tst | teq | cmp | cmn | orr | mov | bic | mvn
deriving DecidableEq, Repr

/-- What an operation gives: the result, and the new C and V. -/
structure DpResult where
  value : Word
  c : Bool
  v : Bool
deriving DecidableEq, Repr

/-- The result and flags of an addition `a + b + cin` (R207). -/
def addResult (a b : Word) (cin : Bool) : DpResult :=
  ⟨BitVec.ofNat 32 (a.toNat + b.toNat + cin.toNat), carryFrom a b cin, overflowFromAdd a b cin⟩

/-- The result and flags of a subtraction `a - b - bin`; C is NOT borrow (R207). -/
def subResult (a b : Word) (bin : Bool) : DpResult :=
  ⟨BitVec.ofInt 32 ((a.toNat : Int) - (b.toNat : Int) - (bin.toNat : Int)), !borrowFrom a b bin, overflowFromSub a b bin⟩

/-- The result and flags of an operation on Rn and the shifter operand, with the C and V before it (R200, R206, R207,
R211 to R226). -/
def dpCompute (op : DpOp) (rn : Word) (so : Shifted) (c v : Bool) : DpResult :=
  match op with
  | .and => ⟨rn &&& so.value, so.carry, v⟩
  | .eor => ⟨rn ^^^ so.value, so.carry, v⟩
  | .sub => subResult rn so.value false
  | .rsb => subResult so.value rn false
  | .add => addResult rn so.value false
  | .adc => addResult rn so.value c
  | .sbc => subResult rn so.value (!c)
  | .rsc => subResult so.value rn (!c)
  | .tst => ⟨rn &&& so.value, so.carry, v⟩
  | .teq => ⟨rn ^^^ so.value, so.carry, v⟩
  | .cmp => subResult rn so.value false
  | .cmn => addResult rn so.value false
  | .orr => ⟨rn ||| so.value, so.carry, v⟩
  | .mov => ⟨so.value, so.carry, v⟩
  | .bic => ⟨rn &&& ~~~so.value, so.carry, v⟩
  | .mvn => ⟨~~~so.value, so.carry, v⟩

/-! ### Halfwords, rotations, counting -/

/-- `half(v, t)` (43_multiply.md R261): the top halfword where t = 1. -/
def half (v : Word) (t : Bool) : BitVec 16 := if t then v.extractLsb' 16 16 else v.extractLsb' 0 16

/-- Byte i of a word (44_parallel_add_sub.md R300). -/
def byteOf (v : Word) (i : Nat) : Byte := v.extractLsb' (8 * i) 8

/-- The rotated operand of the extend instructions (45_extend_misc.md R351). -/
def rotated (v : Word) (rot : BitVec 2) : Word := ror v (8 * rot.toNat)

/-- How many 0 bits stand above the highest 1 bit of the low `k` bits of a word. -/
def leadingZeros (v : Word) : Nat → Nat
  | 0 => 0
  | k + 1 => if v.getLsbD k then 0 else leadingZeros v k + 1

/-- The shifted operand of SSAT and USAT (45_extend_misc.md R378). -/
def satOperand (v : Word) (sh : Bool) (imm5 : BitVec 5) : Word :=
  if sh then (if imm5 = 0 then signWord v else v.sshiftRight imm5.toNat) else v <<< imm5.toNat

/-! ### Addresses of the loads and stores -/

/-- The register offset of a load or store of a word or byte (47_load_store.md R422): a shifted register, no carry-out. -/
def State.regOffset (s : State) (ty : ShiftType) (imm5 : BitVec 5) (rm : Reg) : Word :=
  (shiftImm s.c (s.reg rm) ty imm5).value

/-- Base plus or minus offset (47_load_store.md R424; U = 1 adds). -/
def indexed (base off : Word) (u : Bool) : Word := if u then base + off else base - off

/-- The address a load or store accesses (R421, R424). -/
def accessAddress (im : IndexMode) (base off : Word) (u : Bool) : Word :=
  match im with
  | .offset => indexed base off u
  | .pre => indexed base off u
  | .post => base

/-- The base register is written back (R421, R424). -/
def writesBack : IndexMode → Bool
  | .offset => false | .pre => true | .post => true

/-- Base writeback: the base register takes a value where the form has one. -/
def State.writeBack (s : State) (wb : Bool) (rn : Reg) (v : Word) : State := if wb then s.setReg rn v else s

/-- The value stored for R15: the instruction's address plus `StorePCOffset` (R434). -/
def State.storedPc (s : State) : Word := s.pc + (if s.platform.storePc12 then 12 else 8)

/-- The value a store of Rr of a mode stores (R434, R440). -/
def State.storedReg (s : State) (m : Mode) (r : Reg) : Word := if r = 15 then s.storedPc else s.regOf m r

/-- The registers of a list, rising (48_load_store_multiple_semaphore.md R470, R473). -/
def regList (list : BitVec 16) : List Reg :=
  ((List.range 16).filter (fun i => list.getLsbD i)).map (BitVec.ofNat 4)

/-- `start_address` for `k` words (R472). -/
def blockStart (am : BlockMode) (base : Word) (k : Nat) : Word :=
  match am with
  | .ia => base
  | .ib => base + 4
  | .da => base - BitVec.ofNat 32 (4 * k) + 4
  | .db => base - BitVec.ofNat 32 (4 * k)

/-- The written-back value for `k` words (R472). -/
def blockEnd (am : BlockMode) (base : Word) (k : Nat) : Word :=
  if am.u then base + BitVec.ofNat 32 (4 * k) else base - BitVec.ofNat 32 (4 * k)

/-- The offset of LDC and STC (49_exception_coprocessor.md R520). -/
def cpOffset (imm8 : BitVec 8) : Word := imm8.setWidth 32 <<< 2

/-- The address of LDC and STC (R520). -/
def cpAddress (p u : Bool) (base : Word) (imm8 : BitVec 8) : Word :=
  if p then indexed base (cpOffset imm8) u else base

end Sys2Proof.Machine
end

