-- ==== Sys2Proof/Machine/Branch.lean ====
section
/-! DEFINITION. The branch instructions (41_branch.md). `cur` is `s.pc`; the link value is `cur + 4` (R180). -/
namespace Sys2Proof.Machine

/-- The target of B, BL and BLX (1), modulo 2^32 (10_state.md R39; R181 to R183). -/
def branchTarget (s : State) (imm24 : BitVec 24) : Word := s.pc + 8 + (imm24.signExtend 32 <<< 2)

/-- That target before it is taken modulo 2^32. -/
def exactTarget (s : State) (imm24 : BitVec 24) : Int := (s.pc.toNat : Int) + 8 + 4 * imm24.toInt

/-- A target past either end of the address space is UNPREDICTABLE (R181; 93_implementation_defined.md section 2). -/
def unlessTargetWraps (s : State) (imm24 : BitVec 24) (o : Out) : Out :=
  if 0 ≤ exactTarget s imm24 ∧ exactTarget s imm24 < 2 ^ 32 then o else .fault .pcWrap

/-- R14 takes the address of the instruction after the branch (R182). -/
def State.link (s : State) : State := s.setReg 14 (s.pc + 4)

/-- B (R181): wrapping past an end of the address space faults. -/
def execB (c : Cond) (imm24 : BitVec 24) (st : State) : Out :=
  whenCond c st (unlessTargetWraps st imm24 (.next (st.jump (branchTarget st imm24))))

/-- BL (R182): a target that wraps is gone to. DESIGN CHOICE (notes/assumptions/16.md), unsafe. -/
def execBl (c : Cond) (imm24 : BitVec 24) (st : State) : Out :=
  whenCond c st (.next (st.link.jump (branchTarget st imm24)))

/-- BLX__1 (R183): T is set; a target that wraps is gone to. DESIGN CHOICE (notes/assumptions/16.md), unsafe. -/
def execBlx1 (h : Bool) (imm24 : BitVec 24) (st : State) : Out :=
  .next { st.link with
    cpsr := withBit st.cpsr 5 true
    pc := branchTarget st imm24 + (if h then 2 else 0) }

/-- BLX__2 (R184): the target is read before R14 is written; R15 is UNPREDICTABLE. -/
def execBlx2 (c : Cond) (rm : Reg) (st : State) : Out :=
  whenCond c st (unlessPc [rm] (interwork st.link (st.reg rm)))

/-- BX (R185): R15 is permitted. -/
def execBx (c : Cond) (rm : Reg) (st : State) : Out :=
  whenCond c st (interwork st (st.reg rm))

/-- BXJ (R186): as BX where Jazelle is absent; R15 is UNPREDICTABLE. -/
def execBxj (c : Cond) (rm : Reg) (st : State) : Out :=
  whenCond c st (unlessPc [rm]
    (if st.platform.jazellePresent then .refused .jazelleEntry else interwork st (st.reg rm)))

end Sys2Proof.Machine
end

