-- ==== Sys2Proof/Machine/Coprocessor.lean ====
section
/-! DEFINITION. The coprocessor instructions (49_exception_coprocessor.md R510 to R530). Each is offered to its coprocessor
first, with the whole instruction word (`offer`; R510, R512, R530): absent or rejecting, it is an Undefined Instruction
exception before any other effect (R511). -/
namespace Sys2Proof.Machine

/-- CDP (R513). -/
def cpDataOp (cp : CpField) (word : Word) (s : State) : Out :=
  offer cp word s fun _ => advance (s.cpDone cp word [])

/-- MCR (R515). -/
def cpSend (cp : CpField) (word : Word) (rd : Reg) (s : State) : Out :=
  offer cp word s fun _ => unlessPc [rd] (advance (s.cpDone cp word [s.reg rd]))

/-- MCRR (R516). -/
def cpSend2 (cp : CpField) (word : Word) (rn rd : Reg) (s : State) : Out :=
  offer cp word s fun _ => unlessPc [rn, rd] (advance (s.cpDone cp word [s.reg rd, s.reg rn]))

/-- MRC (R517): with Rd = R15 the value's bits 31 to 28 go to the flags. -/
def cpReceive (cp : CpField) (word : Word) (rd : Reg) (s : State) : Out :=
  offer cp word s fun r =>
    let t := s.cpDone cp word []
    if rd = 15 then
      let v := r.first
      advance { t with cpsr := withNzcv t.cpsr (v.getLsbD 31) (v.getLsbD 30) (v.getLsbD 29) (v.getLsbD 28) }
    else advance (t.setReg rd r.first)

/-- MRRC (R518). -/
def cpReceive2 (cp : CpField) (word : Word) (rn rd : Reg) (s : State) : Out :=
  offer cp word s fun r =>
    unlessPc [rn, rd] (unlessSame rd rn
      (advance (((s.cpDone cp word []).setReg rd r.first).setReg rn r.second)))

/-- LDC and STC write their base register back where W = 1 (R520). -/
def cpWriteBack (s : State) (u w : Bool) (rn : Reg) (base : Word) (imm8 : BitVec 8) : State :=
  s.writeBack w rn (indexed base (cpOffset imm8) u)

/-- LDC (R514): the coprocessor says how many words. -/
def cpLoad (cp : CpField) (word : Word) (p u w : Bool) (rn : Reg) (imm8 : BitVec 8) (s : State) : Out :=
  offer cp word s fun r =>
    let base := s.reg rn
    unlessPc (if w then [rn] else [])
      (afterLoad s (s.loadBlock (cpAddress p u base imm8) (r.ldcMore + 1)) fun ws =>
        advance ((cpWriteBack s u w rn base imm8).cpDone cp word ws))

/-- STC (R519): the coprocessor gives the words. -/
def cpStore (cp : CpField) (word : Word) (p u w : Bool) (rn : Reg) (imm8 : BitVec 8) (s : State) : Out :=
  offer cp word s fun r =>
    let base := s.reg rn
    let a := cpAddress p u base imm8
    unlessPc (if w then [rn] else [])
      (afterStore s a (s.storeBlock a (r.first :: r.more)) fun t =>
        advance ((cpWriteBack t u w rn base imm8).cpDone cp word []))

/-- CDP (R513). -/
def execCdp (c : Cond) (opc1 : BitVec 4) (crn crd cp : CpField) (opc2 : BitVec 3) (crm : CpField)
    (st : State) : Out :=
  whenCond c st (cpDataOp cp (encode (.cdp c opc1 crn crd cp opc2 crm)) st)

/-- LDC (R514). -/
def execLdc (c : Cond) (p u n w : Bool) (rn : Reg) (crd cp : CpField) (imm8 : BitVec 8) (st : State) : Out :=
  whenCond c st (cpLoad cp (encode (.ldc c p u n w rn crd cp imm8)) p u w rn imm8 st)

/-- STC (R519). -/
def execStc (c : Cond) (p u n w : Bool) (rn : Reg) (crd cp : CpField) (imm8 : BitVec 8) (st : State) : Out :=
  whenCond c st (cpStore cp (encode (.stc c p u n w rn crd cp imm8)) p u w rn imm8 st)

/-- MCR (R515). -/
def execMcr (c : Cond) (opc1 : BitVec 3) (crn : CpField) (rd : Reg) (cp : CpField) (opc2 : BitVec 3) (crm : CpField)
    (st : State) : Out :=
  whenCond c st (cpSend cp (encode (.mcr c opc1 crn rd cp opc2 crm)) rd st)

/-- MRC (R517). -/
def execMrc (c : Cond) (opc1 : BitVec 3) (crn : CpField) (rd : Reg) (cp : CpField) (opc2 : BitVec 3) (crm : CpField)
    (st : State) : Out :=
  whenCond c st (cpReceive cp (encode (.mrc c opc1 crn rd cp opc2 crm)) rd st)

/-- MCRR (R516). -/
def execMcrr (c : Cond) (rn rd : Reg) (cp : CpField) (opc : BitVec 4) (crm : CpField) (st : State) : Out :=
  whenCond c st (cpSend2 cp (encode (.mcrr c rn rd cp opc crm)) rn rd st)

/-- MRRC (R518). -/
def execMrrc (c : Cond) (rn rd : Reg) (cp : CpField) (opc : BitVec 4) (crm : CpField) (st : State) : Out :=
  whenCond c st (cpReceive2 cp (encode (.mrrc c rn rd cp opc crm)) rn rd st)

/-- CDP2 (R521): as CDP, unconditional. -/
def execCdp2 (opc1 : BitVec 4) (crn crd cp : CpField) (opc2 : BitVec 3) (crm : CpField) (st : State) : Out :=
  cpDataOp cp (encode (.cdp2 opc1 crn crd cp opc2 crm)) st

/-- LDC2 (R522): as LDC, unconditional. -/
def execLdc2 (p u n w : Bool) (rn : Reg) (crd cp : CpField) (imm8 : BitVec 8) (st : State) : Out :=
  cpLoad cp (encode (.ldc2 p u n w rn crd cp imm8)) p u w rn imm8 st

/-- STC2 (R525): as STC, unconditional. -/
def execStc2 (p u n w : Bool) (rn : Reg) (crd cp : CpField) (imm8 : BitVec 8) (st : State) : Out :=
  cpStore cp (encode (.stc2 p u n w rn crd cp imm8)) p u w rn imm8 st

/-- MCR2 (R523): as MCR, unconditional. -/
def execMcr2 (opc1 : BitVec 3) (crn : CpField) (rd : Reg) (cp : CpField) (opc2 : BitVec 3) (crm : CpField)
    (st : State) : Out :=
  cpSend cp (encode (.mcr2 opc1 crn rd cp opc2 crm)) rd st

/-- MRC2 (R524): as MRC, unconditional. -/
def execMrc2 (opc1 : BitVec 3) (crn : CpField) (rd : Reg) (cp : CpField) (opc2 : BitVec 3) (crm : CpField)
    (st : State) : Out :=
  cpReceive cp (encode (.mrc2 opc1 crn rd cp opc2 crm)) rd st

/-- MCRR2 (R526): as MCRR, unconditional. -/
def execMcrr2 (rn rd : Reg) (cp : CpField) (opc : BitVec 4) (crm : CpField) (st : State) : Out :=
  cpSend2 cp (encode (.mcrr2 rn rd cp opc crm)) rn rd st

/-- MRRC2 (R527): as MRRC, unconditional. -/
def execMrrc2 (rn rd : Reg) (cp : CpField) (opc : BitVec 4) (crm : CpField) (st : State) : Out :=
  cpReceive2 cp (encode (.mrrc2 rn rd cp opc crm)) rn rd st

end Sys2Proof.Machine
end

