-- ==== Sys2Proof/Machine/DataProcessing.lean ====
section
/-! DEFINITION. The data-processing instructions (42_data_processing.md): three encodings of sixteen operations, over one
computation and one way of writing the destination. TST, TEQ, CMP and CMN have no destination, MOV and MVN no first
operand. -/
namespace Sys2Proof.Machine

/-- `DPWrite` (R208). -/
def dpWrite (s : State) (sf : Bool) (rd : Option Reg) (r : DpResult) : Out :=
  match rd with
  | none => advance (s.setFlags r.value r.c r.v)
  | some d =>
    if d = 15 then
      if sf then
        match s.spsr? with
        | some psr => exceptionReturn s psr r.value
        | none => .fault .noSpsr
      else .next (s.jump (r.value &&& 0xFFFFFFFC))
    else if sf then advance ((s.setReg d r.value).setFlags r.value r.c r.v)
    else advance (s.setReg d r.value)

/-- The first operand; 0 where the operation has none (R228). -/
def firstOperand (s : State) (rn : Option Reg) : Word := (rn.map s.reg).getD 0

/-- An operation on a shifter operand (R228). -/
def dpOperate (op : DpOp) (s : State) (sf : Bool) (rn rd : Option Reg) (so : Shifted) : Out :=
  dpWrite s sf rd (dpCompute op (firstOperand s rn) so s.c s.v)

/-- The form with a register shifted by an immediate (R202). -/
def dpShift (op : DpOp) (c : Cond) (sf : Bool) (rn rd : Option Reg) (imm5 : BitVec 5) (ty : ShiftType) (rm : Reg)
    (s : State) : Out :=
  whenCond c s (dpOperate op s sf rn rd (shiftImm s.c (s.reg rm) ty imm5))

/-- The form with a register shifted by a register; R15 in any field is UNPREDICTABLE (R204). -/
def dpReg (op : DpOp) (c : Cond) (sf : Bool) (rn rd : Option Reg) (rs : Reg) (ty : ShiftType) (rm : Reg)
    (s : State) : Out :=
  whenCond c s (unlessPc (rn.toList ++ rd.toList ++ [rs, rm])
    (dpOperate op s sf rn rd (shiftReg s.c (s.reg rm) ty (bottomByte (s.reg rs)))))

/-- The form with an immediate (R201). -/
def dpImm (op : DpOp) (c : Cond) (sf : Bool) (rn rd : Option Reg) (rot : BitVec 4) (imm8 : BitVec 8)
    (s : State) : Out :=
  whenCond c s (dpOperate op s sf rn rd (shifterImm s.c rot imm8))

/-- AND (R211), the second operand a register shifted by an immediate (R202). -/
def execAndShift (c : Cond) (s : Bool) (rn rd : Reg) (imm5 : BitVec 5) (ty : ShiftType) (rm : Reg)
    (st : State) : Out :=
  dpShift .and c s (some rn) (some rd) imm5 ty rm st

/-- AND (R211), the second operand a register shifted by a register (R204). -/
def execAndReg (c : Cond) (s : Bool) (rn rd rs : Reg) (ty : ShiftType) (rm : Reg) (st : State) : Out :=
  dpReg .and c s (some rn) (some rd) rs ty rm st

/-- AND (R211), the second operand an immediate (R201). -/
def execAndImm (c : Cond) (s : Bool) (rn rd : Reg) (rot : BitVec 4) (imm8 : BitVec 8) (st : State) : Out :=
  dpImm .and c s (some rn) (some rd) rot imm8 st

/-- EOR (R212), the second operand a register shifted by an immediate (R202). -/
def execEorShift (c : Cond) (s : Bool) (rn rd : Reg) (imm5 : BitVec 5) (ty : ShiftType) (rm : Reg)
    (st : State) : Out :=
  dpShift .eor c s (some rn) (some rd) imm5 ty rm st

/-- EOR (R212), the second operand a register shifted by a register (R204). -/
def execEorReg (c : Cond) (s : Bool) (rn rd rs : Reg) (ty : ShiftType) (rm : Reg) (st : State) : Out :=
  dpReg .eor c s (some rn) (some rd) rs ty rm st

/-- EOR (R212), the second operand an immediate (R201). -/
def execEorImm (c : Cond) (s : Bool) (rn rd : Reg) (rot : BitVec 4) (imm8 : BitVec 8) (st : State) : Out :=
  dpImm .eor c s (some rn) (some rd) rot imm8 st

/-- SUB (R213), the second operand a register shifted by an immediate (R202). -/
def execSubShift (c : Cond) (s : Bool) (rn rd : Reg) (imm5 : BitVec 5) (ty : ShiftType) (rm : Reg)
    (st : State) : Out :=
  dpShift .sub c s (some rn) (some rd) imm5 ty rm st

/-- SUB (R213), the second operand a register shifted by a register (R204). -/
def execSubReg (c : Cond) (s : Bool) (rn rd rs : Reg) (ty : ShiftType) (rm : Reg) (st : State) : Out :=
  dpReg .sub c s (some rn) (some rd) rs ty rm st

/-- SUB (R213), the second operand an immediate (R201). -/
def execSubImm (c : Cond) (s : Bool) (rn rd : Reg) (rot : BitVec 4) (imm8 : BitVec 8) (st : State) : Out :=
  dpImm .sub c s (some rn) (some rd) rot imm8 st

/-- RSB (R214), the second operand a register shifted by an immediate (R202). -/
def execRsbShift (c : Cond) (s : Bool) (rn rd : Reg) (imm5 : BitVec 5) (ty : ShiftType) (rm : Reg)
    (st : State) : Out :=
  dpShift .rsb c s (some rn) (some rd) imm5 ty rm st

/-- RSB (R214), the second operand a register shifted by a register (R204). -/
def execRsbReg (c : Cond) (s : Bool) (rn rd rs : Reg) (ty : ShiftType) (rm : Reg) (st : State) : Out :=
  dpReg .rsb c s (some rn) (some rd) rs ty rm st

/-- RSB (R214), the second operand an immediate (R201). -/
def execRsbImm (c : Cond) (s : Bool) (rn rd : Reg) (rot : BitVec 4) (imm8 : BitVec 8) (st : State) : Out :=
  dpImm .rsb c s (some rn) (some rd) rot imm8 st

/-- ADD (R215), the second operand a register shifted by an immediate (R202). -/
def execAddShift (c : Cond) (s : Bool) (rn rd : Reg) (imm5 : BitVec 5) (ty : ShiftType) (rm : Reg)
    (st : State) : Out :=
  dpShift .add c s (some rn) (some rd) imm5 ty rm st

/-- ADD (R215), the second operand a register shifted by a register (R204). -/
def execAddReg (c : Cond) (s : Bool) (rn rd rs : Reg) (ty : ShiftType) (rm : Reg) (st : State) : Out :=
  dpReg .add c s (some rn) (some rd) rs ty rm st

/-- ADD (R215), the second operand an immediate (R201). -/
def execAddImm (c : Cond) (s : Bool) (rn rd : Reg) (rot : BitVec 4) (imm8 : BitVec 8) (st : State) : Out :=
  dpImm .add c s (some rn) (some rd) rot imm8 st

/-- ADC (R216), the second operand a register shifted by an immediate (R202). -/
def execAdcShift (c : Cond) (s : Bool) (rn rd : Reg) (imm5 : BitVec 5) (ty : ShiftType) (rm : Reg)
    (st : State) : Out :=
  dpShift .adc c s (some rn) (some rd) imm5 ty rm st

/-- ADC (R216), the second operand a register shifted by a register (R204). -/
def execAdcReg (c : Cond) (s : Bool) (rn rd rs : Reg) (ty : ShiftType) (rm : Reg) (st : State) : Out :=
  dpReg .adc c s (some rn) (some rd) rs ty rm st

/-- ADC (R216), the second operand an immediate (R201). -/
def execAdcImm (c : Cond) (s : Bool) (rn rd : Reg) (rot : BitVec 4) (imm8 : BitVec 8) (st : State) : Out :=
  dpImm .adc c s (some rn) (some rd) rot imm8 st

/-- SBC (R217), the second operand a register shifted by an immediate (R202). -/
def execSbcShift (c : Cond) (s : Bool) (rn rd : Reg) (imm5 : BitVec 5) (ty : ShiftType) (rm : Reg)
    (st : State) : Out :=
  dpShift .sbc c s (some rn) (some rd) imm5 ty rm st

/-- SBC (R217), the second operand a register shifted by a register (R204). -/
def execSbcReg (c : Cond) (s : Bool) (rn rd rs : Reg) (ty : ShiftType) (rm : Reg) (st : State) : Out :=
  dpReg .sbc c s (some rn) (some rd) rs ty rm st

/-- SBC (R217), the second operand an immediate (R201). -/
def execSbcImm (c : Cond) (s : Bool) (rn rd : Reg) (rot : BitVec 4) (imm8 : BitVec 8) (st : State) : Out :=
  dpImm .sbc c s (some rn) (some rd) rot imm8 st

/-- RSC (R218), the second operand a register shifted by an immediate (R202). -/
def execRscShift (c : Cond) (s : Bool) (rn rd : Reg) (imm5 : BitVec 5) (ty : ShiftType) (rm : Reg)
    (st : State) : Out :=
  dpShift .rsc c s (some rn) (some rd) imm5 ty rm st

/-- RSC (R218), the second operand a register shifted by a register (R204). -/
def execRscReg (c : Cond) (s : Bool) (rn rd rs : Reg) (ty : ShiftType) (rm : Reg) (st : State) : Out :=
  dpReg .rsc c s (some rn) (some rd) rs ty rm st

/-- RSC (R218), the second operand an immediate (R201). -/
def execRscImm (c : Cond) (s : Bool) (rn rd : Reg) (rot : BitVec 4) (imm8 : BitVec 8) (st : State) : Out :=
  dpImm .rsc c s (some rn) (some rd) rot imm8 st

/-- TST (R219), the second operand a register shifted by an immediate (R202). -/
def execTstShift (c : Cond) (rn : Reg) (imm5 : BitVec 5) (ty : ShiftType) (rm : Reg) (st : State) : Out :=
  dpShift .tst c true (some rn) none imm5 ty rm st

/-- TST (R219), the second operand a register shifted by a register (R204). -/
def execTstReg (c : Cond) (rn rs : Reg) (ty : ShiftType) (rm : Reg) (st : State) : Out :=
  dpReg .tst c true (some rn) none rs ty rm st

/-- TST (R219), the second operand an immediate (R201). -/
def execTstImm (c : Cond) (rn : Reg) (rot : BitVec 4) (imm8 : BitVec 8) (st : State) : Out :=
  dpImm .tst c true (some rn) none rot imm8 st

/-- TEQ (R220), the second operand a register shifted by an immediate (R202). -/
def execTeqShift (c : Cond) (rn : Reg) (imm5 : BitVec 5) (ty : ShiftType) (rm : Reg) (st : State) : Out :=
  dpShift .teq c true (some rn) none imm5 ty rm st

/-- TEQ (R220), the second operand a register shifted by a register (R204). -/
def execTeqReg (c : Cond) (rn rs : Reg) (ty : ShiftType) (rm : Reg) (st : State) : Out :=
  dpReg .teq c true (some rn) none rs ty rm st

/-- TEQ (R220), the second operand an immediate (R201). -/
def execTeqImm (c : Cond) (rn : Reg) (rot : BitVec 4) (imm8 : BitVec 8) (st : State) : Out :=
  dpImm .teq c true (some rn) none rot imm8 st

/-- CMP (R221), the second operand a register shifted by an immediate (R202). -/
def execCmpShift (c : Cond) (rn : Reg) (imm5 : BitVec 5) (ty : ShiftType) (rm : Reg) (st : State) : Out :=
  dpShift .cmp c true (some rn) none imm5 ty rm st

/-- CMP (R221), the second operand a register shifted by a register (R204). -/
def execCmpReg (c : Cond) (rn rs : Reg) (ty : ShiftType) (rm : Reg) (st : State) : Out :=
  dpReg .cmp c true (some rn) none rs ty rm st

/-- CMP (R221), the second operand an immediate (R201). -/
def execCmpImm (c : Cond) (rn : Reg) (rot : BitVec 4) (imm8 : BitVec 8) (st : State) : Out :=
  dpImm .cmp c true (some rn) none rot imm8 st

/-- CMN (R222), the second operand a register shifted by an immediate (R202). -/
def execCmnShift (c : Cond) (rn : Reg) (imm5 : BitVec 5) (ty : ShiftType) (rm : Reg) (st : State) : Out :=
  dpShift .cmn c true (some rn) none imm5 ty rm st

/-- CMN (R222), the second operand a register shifted by a register (R204). -/
def execCmnReg (c : Cond) (rn rs : Reg) (ty : ShiftType) (rm : Reg) (st : State) : Out :=
  dpReg .cmn c true (some rn) none rs ty rm st

/-- CMN (R222), the second operand an immediate (R201). -/
def execCmnImm (c : Cond) (rn : Reg) (rot : BitVec 4) (imm8 : BitVec 8) (st : State) : Out :=
  dpImm .cmn c true (some rn) none rot imm8 st

/-- ORR (R223), the second operand a register shifted by an immediate (R202). -/
def execOrrShift (c : Cond) (s : Bool) (rn rd : Reg) (imm5 : BitVec 5) (ty : ShiftType) (rm : Reg)
    (st : State) : Out :=
  dpShift .orr c s (some rn) (some rd) imm5 ty rm st

/-- ORR (R223), the second operand a register shifted by a register (R204). -/
def execOrrReg (c : Cond) (s : Bool) (rn rd rs : Reg) (ty : ShiftType) (rm : Reg) (st : State) : Out :=
  dpReg .orr c s (some rn) (some rd) rs ty rm st

/-- ORR (R223), the second operand an immediate (R201). -/
def execOrrImm (c : Cond) (s : Bool) (rn rd : Reg) (rot : BitVec 4) (imm8 : BitVec 8) (st : State) : Out :=
  dpImm .orr c s (some rn) (some rd) rot imm8 st

/-- MOV (R224), the second operand a register shifted by an immediate (R202). -/
def execMovShift (c : Cond) (s : Bool) (rd : Reg) (imm5 : BitVec 5) (ty : ShiftType) (rm : Reg) (st : State) : Out :=
  dpShift .mov c s none (some rd) imm5 ty rm st

/-- MOV (R224), the second operand a register shifted by a register (R204). -/
def execMovReg (c : Cond) (s : Bool) (rd rs : Reg) (ty : ShiftType) (rm : Reg) (st : State) : Out :=
  dpReg .mov c s none (some rd) rs ty rm st

/-- MOV (R224), the second operand an immediate (R201). -/
def execMovImm (c : Cond) (s : Bool) (rd : Reg) (rot : BitVec 4) (imm8 : BitVec 8) (st : State) : Out :=
  dpImm .mov c s none (some rd) rot imm8 st

/-- BIC (R225), the second operand a register shifted by an immediate (R202). -/
def execBicShift (c : Cond) (s : Bool) (rn rd : Reg) (imm5 : BitVec 5) (ty : ShiftType) (rm : Reg)
    (st : State) : Out :=
  dpShift .bic c s (some rn) (some rd) imm5 ty rm st

/-- BIC (R225), the second operand a register shifted by a register (R204). -/
def execBicReg (c : Cond) (s : Bool) (rn rd rs : Reg) (ty : ShiftType) (rm : Reg) (st : State) : Out :=
  dpReg .bic c s (some rn) (some rd) rs ty rm st

/-- BIC (R225), the second operand an immediate (R201). -/
def execBicImm (c : Cond) (s : Bool) (rn rd : Reg) (rot : BitVec 4) (imm8 : BitVec 8) (st : State) : Out :=
  dpImm .bic c s (some rn) (some rd) rot imm8 st

/-- MVN (R226), the second operand a register shifted by an immediate (R202). -/
def execMvnShift (c : Cond) (s : Bool) (rd : Reg) (imm5 : BitVec 5) (ty : ShiftType) (rm : Reg) (st : State) : Out :=
  dpShift .mvn c s none (some rd) imm5 ty rm st

/-- MVN (R226), the second operand a register shifted by a register (R204). -/
def execMvnReg (c : Cond) (s : Bool) (rd rs : Reg) (ty : ShiftType) (rm : Reg) (st : State) : Out :=
  dpReg .mvn c s none (some rd) rs ty rm st

/-- MVN (R226), the second operand an immediate (R201). -/
def execMvnImm (c : Cond) (s : Bool) (rd : Reg) (rot : BitVec 4) (imm8 : BitVec 8) (st : State) : Out :=
  dpImm .mvn c s none (some rd) rot imm8 st

end Sys2Proof.Machine
end

