-- ==== Sys2Proof/Machine/ExceptionGenerating.lean ====
section
/-! DEFINITION. SWI, BKPT and the architecturally Undefined instruction (49_exception_coprocessor.md R500 to R503). -/
namespace Sys2Proof.Machine

/-- SWI (R500): the immediate is ignored. -/
def execSwi (c : Cond) (_imm24 : BitVec 24) (st : State) : Out :=
  whenCond c st (raise .softwareInterrupt st)

/-- BKPT (R501): the immediate is ignored; a condition other than AL is UNPREDICTABLE. -/
def execBkpt (c : Cond) (_imm16 : BitVec 16) (st : State) : Out :=
  whenCond c st
    (if c ≠ .al then .fault .bkptCondition
    else if st.platform.debugOverridesBkpt then .refused .debugOverride
    else raise .prefetchAbort st)

/-- UNDEFINED__architecturally_Undefined (R503). -/
def execUndef (c : Cond) (_imm16 : BitVec 16) (st : State) : Out :=
  whenCond c st (raise .undefinedInstruction st)

end Sys2Proof.Machine
end

