-- ==== Sys2Proof/Machine/ExtendMisc.lean ====
section
/-! DEFINITION. The extend, miscellaneous arithmetic, pack, reverse, select, saturate and saturating add and subtract
instructions (45_extend_misc.md). -/
namespace Sys2Proof.Machine

/-- An instruction that writes one register and may set Q; R15 in any field is UNPREDICTABLE (R351, R364, R365, R370,
R385). -/
def regOp (c : Cond) (regs : List Reg) (rd : Reg) (v : Word) (q : Bool) (s : State) : Out :=
  whenCond c s (unlessPc regs (advance ((s.setReg rd v).setQ q)))

/-- Bytes 0 and 2 of a word, each extended to a halfword by `ext` (R352, R355). -/
def extendPair (ext : Byte → BitVec 16) (v : Word) : Word := ext (byteOf v 2) ++ ext (byteOf v 0)

/-- Halfwords added lane by lane, modulo 2^16, no carry between them (R352). -/
def addHalves (a b : Word) : Word := (half a true + half b true) ++ (half a false + half b false)

/-- The absolute difference of two bytes read as unsigned (R365). -/
def absDiff (a b : Byte) : Nat := if a.toNat < b.toNat then b.toNat - a.toNat else a.toNat - b.toNat

/-- The sum of the absolute differences of four pairs of bytes (R365). -/
def sumAbsDiff (a b : Word) : Nat :=
  absDiff (byteOf a 0) (byteOf b 0) + absDiff (byteOf a 1) (byteOf b 1) + absDiff (byteOf a 2) (byteOf b 2) +
    absDiff (byteOf a 3) (byteOf b 3)

/-- `x[Rm] ASR n` where 0 stands for 32 (R372). -/
def asr32 (v : Word) (imm5 : BitVec 5) : Word := if imm5 = 0 then signWord v else v.sshiftRight imm5.toNat

/-- The two saturated halfwords of a pair, one above the other (R379, R381). -/
def satHalves (sat : Int → Int) (v : Word) : Word :=
  BitVec.ofInt 16 (sat (half v true).toInt) ++ BitVec.ofInt 16 (sat (half v false).toInt)

/-- One of the two halfwords saturates (R379, R381). -/
def satEither (does : Int → Bool) (v : Word) : Bool := does (half v true).toInt || does (half v false).toInt

/-- One byte of SEL: of the first operand where the GE bit is 1 (R377). -/
def selByte (g : BitVec 4) (a b : Word) (i : Nat) : Byte := if g.getLsbD i then byteOf a i else byteOf b i

/-- SEL (R377). -/
def selBytes (g : BitVec 4) (a b : Word) : Word := selByte g a b 3 ++ selByte g a b 2 ++ selByte g a b 1 ++ selByte g a b 0

/-- The saturated double of QDADD and QDSUB (R388, R389). -/
def doubled (v : Word) : Int := 2 * v.toInt

/-- SXTAB16 (R352). -/
def execSxtab16 (c : Cond) (rn rd : Reg) (rot : BitVec 2) (rm : Reg) (st : State) : Out :=
  regOp c [rn, rd, rm] rd (addHalves (st.reg rn) (extendPair (·.signExtend 16) (rotated (st.reg rm) rot))) false st

/-- SXTB16 (R355). -/
def execSxtb16 (c : Cond) (rd : Reg) (rot : BitVec 2) (rm : Reg) (st : State) : Out :=
  regOp c [rd, rm] rd (extendPair (·.signExtend 16) (rotated (st.reg rm) rot)) false st

/-- SXTAB (R353). -/
def execSxtab (c : Cond) (rn rd : Reg) (rot : BitVec 2) (rm : Reg) (st : State) : Out :=
  regOp c [rn, rd, rm] rd (st.reg rn + (byteOf (rotated (st.reg rm) rot) 0).signExtend 32) false st

/-- SXTB (R356). -/
def execSxtb (c : Cond) (rd : Reg) (rot : BitVec 2) (rm : Reg) (st : State) : Out :=
  regOp c [rd, rm] rd ((byteOf (rotated (st.reg rm) rot) 0).signExtend 32) false st

/-- SXTAH (R354). -/
def execSxtah (c : Cond) (rn rd : Reg) (rot : BitVec 2) (rm : Reg) (st : State) : Out :=
  regOp c [rn, rd, rm] rd (st.reg rn + (half (rotated (st.reg rm) rot) false).signExtend 32) false st

/-- SXTH (R357). -/
def execSxth (c : Cond) (rd : Reg) (rot : BitVec 2) (rm : Reg) (st : State) : Out :=
  regOp c [rd, rm] rd ((half (rotated (st.reg rm) rot) false).signExtend 32) false st

/-- UXTAB16 (R358). -/
def execUxtab16 (c : Cond) (rn rd : Reg) (rot : BitVec 2) (rm : Reg) (st : State) : Out :=
  regOp c [rn, rd, rm] rd (addHalves (st.reg rn) (extendPair (·.setWidth 16) (rotated (st.reg rm) rot))) false st

/-- UXTB16 (R361). -/
def execUxtb16 (c : Cond) (rd : Reg) (rot : BitVec 2) (rm : Reg) (st : State) : Out :=
  regOp c [rd, rm] rd (extendPair (·.setWidth 16) (rotated (st.reg rm) rot)) false st

/-- UXTAB (R359). -/
def execUxtab (c : Cond) (rn rd : Reg) (rot : BitVec 2) (rm : Reg) (st : State) : Out :=
  regOp c [rn, rd, rm] rd (st.reg rn + (byteOf (rotated (st.reg rm) rot) 0).setWidth 32) false st

/-- UXTB (R362). -/
def execUxtb (c : Cond) (rd : Reg) (rot : BitVec 2) (rm : Reg) (st : State) : Out :=
  regOp c [rd, rm] rd ((byteOf (rotated (st.reg rm) rot) 0).setWidth 32) false st

/-- UXTAH (R360). -/
def execUxtah (c : Cond) (rn rd : Reg) (rot : BitVec 2) (rm : Reg) (st : State) : Out :=
  regOp c [rn, rd, rm] rd (st.reg rn + (half (rotated (st.reg rm) rot) false).setWidth 32) false st

/-- UXTH (R363). -/
def execUxth (c : Cond) (rd : Reg) (rot : BitVec 2) (rm : Reg) (st : State) : Out :=
  regOp c [rd, rm] rd ((half (rotated (st.reg rm) rot) false).setWidth 32) false st

/-- CLZ (R364). -/
def execClz (c : Cond) (rd rm : Reg) (st : State) : Out :=
  regOp c [rd, rm] rd (BitVec.ofNat 32 (leadingZeros (st.reg rm) 32)) false st

/-- USAD8 (R365). -/
def execUsad8 (c : Cond) (rd rs rm : Reg) (st : State) : Out :=
  regOp c [rd, rs, rm] rd (BitVec.ofNat 32 (sumAbsDiff (st.reg rm) (st.reg rs))) false st

/-- USADA8 (R366). -/
def execUsada8 (c : Cond) (rd rn rs rm : Reg) (st : State) : Out :=
  regOp c [rd, rn, rs, rm] rd (st.reg rn + BitVec.ofNat 32 (sumAbsDiff (st.reg rm) (st.reg rs))) false st

/-- PKHBT (R371). -/
def execPkhbt (c : Cond) (rn rd : Reg) (imm5 : BitVec 5) (rm : Reg) (st : State) : Out :=
  regOp c [rn, rd, rm] rd (half (st.reg rm <<< imm5.toNat) true ++ half (st.reg rn) false) false st

/-- PKHTB (R372). -/
def execPkhtb (c : Cond) (rn rd : Reg) (imm5 : BitVec 5) (rm : Reg) (st : State) : Out :=
  regOp c [rn, rd, rm] rd (half (st.reg rn) true ++ half (asr32 (st.reg rm) imm5) false) false st

/-- REV (R373). -/
def execRev (c : Cond) (rd rm : Reg) (st : State) : Out :=
  regOp c [rd, rm] rd
    (byteOf (st.reg rm) 0 ++ byteOf (st.reg rm) 1 ++ byteOf (st.reg rm) 2 ++ byteOf (st.reg rm) 3) false st

/-- REV16 (R374). -/
def execRev16 (c : Cond) (rd rm : Reg) (st : State) : Out :=
  regOp c [rd, rm] rd
    (byteOf (st.reg rm) 2 ++ byteOf (st.reg rm) 3 ++ byteOf (st.reg rm) 0 ++ byteOf (st.reg rm) 1) false st

/-- REVSH (R375). -/
def execRevsh (c : Cond) (rd rm : Reg) (st : State) : Out :=
  regOp c [rd, rm] rd ((byteOf (st.reg rm) 0 ++ byteOf (st.reg rm) 1).signExtend 32) false st

/-- SEL (R377). -/
def execSel (c : Cond) (rn rd rm : Reg) (st : State) : Out :=
  regOp c [rn, rd, rm] rd (selBytes st.ge (st.reg rn) (st.reg rm)) false st

/-- SSAT (R378). -/
def execSsat (c : Cond) (sat : BitVec 5) (rd : Reg) (imm5 : BitVec 5) (sh : Bool) (rm : Reg) (st : State) : Out :=
  let v := (satOperand (st.reg rm) sh imm5).toInt
  regOp c [rd, rm] rd (BitVec.ofInt 32 (signedSat v (sat.toNat + 1))) (signedDoesSat v (sat.toNat + 1)) st

/-- SSAT16 (R379). -/
def execSsat16 (c : Cond) (sat : BitVec 4) (rd rm : Reg) (st : State) : Out :=
  let n := sat.toNat + 1
  regOp c [rd, rm] rd (satHalves (fun i => signedSat i n) (st.reg rm)) (satEither (fun i => signedDoesSat i n)
    (st.reg rm)) st

/-- USAT (R380). -/
def execUsat (c : Cond) (sat : BitVec 5) (rd : Reg) (imm5 : BitVec 5) (sh : Bool) (rm : Reg) (st : State) : Out :=
  let v := (satOperand (st.reg rm) sh imm5).toInt
  regOp c [rd, rm] rd (BitVec.ofInt 32 (unsignedSat v sat.toNat)) (unsignedDoesSat v sat.toNat) st

/-- USAT16 (R381). -/
def execUsat16 (c : Cond) (sat : BitVec 4) (rd rm : Reg) (st : State) : Out :=
  let n := sat.toNat
  regOp c [rd, rm] rd (satHalves (fun i => unsignedSat i n) (st.reg rm))
    (satEither (fun i => unsignedDoesSat i n) (st.reg rm)) st

/-- QADD (R386). -/
def execQadd (c : Cond) (rn rd rm : Reg) (st : State) : Out :=
  let r := (st.reg rm).toInt + (st.reg rn).toInt
  regOp c [rn, rd, rm] rd (BitVec.ofInt 32 (signedSat r 32)) (signedDoesSat r 32) st

/-- QSUB (R387). -/
def execQsub (c : Cond) (rn rd rm : Reg) (st : State) : Out :=
  let r := (st.reg rm).toInt - (st.reg rn).toInt
  regOp c [rn, rd, rm] rd (BitVec.ofInt 32 (signedSat r 32)) (signedDoesSat r 32) st

/-- QDADD (R388). -/
def execQdadd (c : Cond) (rn rd rm : Reg) (st : State) : Out :=
  let d := doubled (st.reg rn)
  let r := (st.reg rm).toInt + signedSat d 32
  regOp c [rn, rd, rm] rd (BitVec.ofInt 32 (signedSat r 32)) (signedDoesSat d 32 || signedDoesSat r 32) st

/-- QDSUB (R389). -/
def execQdsub (c : Cond) (rn rd rm : Reg) (st : State) : Out :=
  let d := doubled (st.reg rn)
  let r := (st.reg rm).toInt - signedSat d 32
  regOp c [rn, rd, rm] rd (BitVec.ofInt 32 (signedSat r 32)) (signedDoesSat d 32 || signedDoesSat r 32) st

end Sys2Proof.Machine
end

