-- ==== Sys2Proof/Machine/LoadStore.lean ====
section
/-! DEFINITION. The loads and stores of one register or a pair, the exclusive accesses and PLD (47_load_store.md). Order
of effects (R424): address, access, base writeback, destination. -/
namespace Sys2Proof.Machine

/-- The register restrictions of a form (R425, R426): (b) Rm not R15, where there is one; (c) Rn not R15 with writeback;
(d) Rd not R15 where `noPc`; (a) Rd not Rn with writeback. -/
def lsChecks (noPc : Bool) (wb : Bool) (rn rd : Reg) (rm : Option Reg) (o : Out) : Out :=
  unlessPc (rm.toList ++ (if wb then [rn] else []) ++ (if noPc then [rd] else []))
    (if wb && rd == rn then .fault .writebackBase else o)

/-- A load of a byte, halfword or word: `ext` extends the value read (R431, R432, R436 to R438). -/
def loadReg (v : Privilege) (n : Nat) (ext : Word → Word) (im : IndexMode) (u : Bool) (rn rd : Reg) (off : Word)
    (s : State) : Out :=
  let base := s.reg rn
  afterLoad s (s.load v n (accessAddress im base off u)) fun data =>
    let t := s.writeBack (writesBack im) rn (indexed base off u)
    if rd = 15 then interwork t data else advance (t.setReg rd (ext data))

/-- A store of a byte, halfword or word (R440, R441, R444). -/
def storeReg (v : Privilege) (n : Nat) (im : IndexMode) (u : Bool) (rn rd : Reg) (off : Word) (s : State) : Out :=
  let base := s.reg rn
  let a := accessAddress im base off u
  afterStore s a (s.store v n a (s.storedReg s.mode rd)) fun t =>
    advance (t.writeBack (writesBack im) rn (indexed base off u))

/-- The addressing forms of a load or store: a condition, the checks, then the access. -/
def lsOp (c : Cond) (noPc : Bool) (im : IndexMode) (rn rd : Reg) (rm : Option Reg) (s : State) (o : Out) : Out :=
  whenCond c s (lsChecks noPc (writesBack im) rn rd rm o)

/-- The register after Rd, of a doubleword pair (R435). -/
def pairReg (rd : Reg) : Reg := rd + 1

/-- The checks of LDRD and STRD (R435, R443): an odd Rd is UNDEFINED, before the other checks of a word that decodes
(DESIGN CHOICE, notes/assumptions/27.md); R14, and the register restrictions. `load` adds that the offset register is none
of the pair. -/
def pairChecks (load : Bool) (im : IndexMode) (rn rd : Reg) (rm : Option Reg) (s : State) (o : Out) : Out :=
  if rd.getLsbD 0 then raise .undefinedInstruction s
  else if rd = 14 then .fault .doublewordR14
  else unlessPc (rm.toList ++ (if writesBack im then [rn] else []))
    (if writesBack im && (rn == rd || rn == pairReg rd) then .fault .writebackBase
     else if load && (rm == some rd || rm == some (pairReg rd)) then .fault .sameRegister
     else o)

/-- An access to `n` bytes as one whole: crossing the top of the address space is UNPREDICTABLE (20_memory.md R83), an
address that is not a multiple of `n` takes the Data Abort (R77; notes/assumptions/12.md, 14.md). -/
def whenAligned (n : Nat) (a : Word) (s : State) (o : Out) : Out :=
  if crossesTop a n then .fault .addressWrap else if a.toNat % n ≠ 0 then raise .dataAbort s else o

/-- LDRD after its checks (R435). -/
def loadPair (im : IndexMode) (u : Bool) (rn rd : Reg) (off : Word) (s : State) : Out :=
  let base := s.reg rn
  let a := accessAddress im base off u
  whenAligned 8 a s
    (match s.loadBlock a 2 with
      | .ok ws => advance ((s.writeBack (writesBack im) rn (indexed base off u)).setRegsOf s.mode [rd, pairReg rd] ws)
      | .abort d => abortedLoad s s.mode rn ([rd, pairReg rd].take d)
      | .fault f => .fault f)

/-- STRD after its checks (R443). -/
def storePair (im : IndexMode) (u : Bool) (rn rd : Reg) (off : Word) (s : State) : Out :=
  let base := s.reg rn
  let a := accessAddress im base off u
  whenAligned 8 a s
    (afterStore s a (s.storeBlock a [s.reg rd, s.reg (pairReg rd)]) fun t =>
      advance (t.writeBack (writesBack im) rn (indexed base off u)))

/-- The value itself: a word, or a byte or halfword zero-extended, as `State.load` reads them (20_memory.md R79). -/
def zeroExtended (v : Word) : Word := v

/-- A byte read, sign-extended (R437). -/
def signedByte (v : Word) : Word := (v.setWidth 8).signExtend 32

/-- A halfword read, sign-extended (R438). -/
def signedHalf (v : Word) : Word := (v.setWidth 16).signExtend 32

/-- The zero-extended 12-bit offset (R422). -/
def offset12 (imm12 : BitVec 12) : Word := imm12.setWidth 32

/-- The zero-extended 8-bit offset (R423). -/
def offset8 (imm8 : BitVec 8) : Word := imm8.setWidth 32

/-- LDR (R431) with an immediate offset. -/
def execLdrImm (c : Cond) (im : IndexMode) (u : Bool) (rn rd : Reg) (imm12 : BitVec 12) (st : State) : Out :=
  lsOp c false im rn rd none st (loadReg st.privilege 4 zeroExtended im u rn rd (offset12 imm12) st)

/-- LDR (R431) with a register offset. -/
def execLdrReg (c : Cond) (im : IndexMode) (u : Bool) (rn rd : Reg) (imm5 : BitVec 5) (ty : ShiftType) (rm : Reg)
    (st : State) : Out :=
  lsOp c false im rn rd (some rm) st (loadReg st.privilege 4 zeroExtended im u rn rd (st.regOffset ty imm5 rm) st)

/-- LDRB (R432) with an immediate offset. -/
def execLdrbImm (c : Cond) (im : IndexMode) (u : Bool) (rn rd : Reg) (imm12 : BitVec 12) (st : State) : Out :=
  lsOp c true im rn rd none st (loadReg st.privilege 1 zeroExtended im u rn rd (offset12 imm12) st)

/-- LDRB (R432) with a register offset. -/
def execLdrbReg (c : Cond) (im : IndexMode) (u : Bool) (rn rd : Reg) (imm5 : BitVec 5) (ty : ShiftType) (rm : Reg)
    (st : State) : Out :=
  lsOp c true im rn rd (some rm) st (loadReg st.privilege 1 zeroExtended im u rn rd (st.regOffset ty imm5 rm) st)

/-- STR (R440) with an immediate offset. -/
def execStrImm (c : Cond) (im : IndexMode) (u : Bool) (rn rd : Reg) (imm12 : BitVec 12) (st : State) : Out :=
  lsOp c false im rn rd none st (storeReg st.privilege 4 im u rn rd (offset12 imm12) st)

/-- STR (R440) with a register offset. -/
def execStrReg (c : Cond) (im : IndexMode) (u : Bool) (rn rd : Reg) (imm5 : BitVec 5) (ty : ShiftType) (rm : Reg)
    (st : State) : Out :=
  lsOp c false im rn rd (some rm) st (storeReg st.privilege 4 im u rn rd (st.regOffset ty imm5 rm) st)

/-- STRB (R441) with an immediate offset. -/
def execStrbImm (c : Cond) (im : IndexMode) (u : Bool) (rn rd : Reg) (imm12 : BitVec 12) (st : State) : Out :=
  lsOp c true im rn rd none st (storeReg st.privilege 1 im u rn rd (offset12 imm12) st)

/-- STRB (R441) with a register offset. -/
def execStrbReg (c : Cond) (im : IndexMode) (u : Bool) (rn rd : Reg) (imm5 : BitVec 5) (ty : ShiftType) (rm : Reg)
    (st : State) : Out :=
  lsOp c true im rn rd (some rm) st (storeReg st.privilege 1 im u rn rd (st.regOffset ty imm5 rm) st)

/-- LDRT (R439) with an immediate offset. -/
def execLdrtImm (c : Cond) (u : Bool) (rn rd : Reg) (imm12 : BitVec 12) (st : State) : Out :=
  lsOp c true .post rn rd none st (loadReg .user 4 zeroExtended .post u rn rd (offset12 imm12) st)

/-- LDRT (R439) with a register offset. -/
def execLdrtReg (c : Cond) (u : Bool) (rn rd : Reg) (imm5 : BitVec 5) (ty : ShiftType) (rm : Reg)
    (st : State) : Out :=
  lsOp c true .post rn rd (some rm) st (loadReg .user 4 zeroExtended .post u rn rd (st.regOffset ty imm5 rm) st)

/-- LDRBT (R433) with an immediate offset. -/
def execLdrbtImm (c : Cond) (u : Bool) (rn rd : Reg) (imm12 : BitVec 12) (st : State) : Out :=
  lsOp c true .post rn rd none st (loadReg .user 1 zeroExtended .post u rn rd (offset12 imm12) st)

/-- LDRBT (R433) with a register offset. -/
def execLdrbtReg (c : Cond) (u : Bool) (rn rd : Reg) (imm5 : BitVec 5) (ty : ShiftType) (rm : Reg)
    (st : State) : Out :=
  lsOp c true .post rn rd (some rm) st (loadReg .user 1 zeroExtended .post u rn rd (st.regOffset ty imm5 rm) st)

/-- STRT (R445) with an immediate offset. -/
def execStrtImm (c : Cond) (u : Bool) (rn rd : Reg) (imm12 : BitVec 12) (st : State) : Out :=
  lsOp c true .post rn rd none st (storeReg .user 4 .post u rn rd (offset12 imm12) st)

/-- STRT (R445) with a register offset. -/
def execStrtReg (c : Cond) (u : Bool) (rn rd : Reg) (imm5 : BitVec 5) (ty : ShiftType) (rm : Reg)
    (st : State) : Out :=
  lsOp c true .post rn rd (some rm) st (storeReg .user 4 .post u rn rd (st.regOffset ty imm5 rm) st)

/-- STRBT (R442) with an immediate offset. -/
def execStrbtImm (c : Cond) (u : Bool) (rn rd : Reg) (imm12 : BitVec 12) (st : State) : Out :=
  lsOp c true .post rn rd none st (storeReg .user 1 .post u rn rd (offset12 imm12) st)

/-- STRBT (R442) with a register offset. -/
def execStrbtReg (c : Cond) (u : Bool) (rn rd : Reg) (imm5 : BitVec 5) (ty : ShiftType) (rm : Reg)
    (st : State) : Out :=
  lsOp c true .post rn rd (some rm) st (storeReg .user 1 .post u rn rd (st.regOffset ty imm5 rm) st)

/-- STRH (R444) with an immediate offset. -/
def execStrhImm (c : Cond) (im : IndexMode) (u : Bool) (rn rd : Reg) (imm8 : BitVec 8) (st : State) : Out :=
  lsOp c true im rn rd none st (storeReg st.privilege 2 im u rn rd (offset8 imm8) st)

/-- STRH (R444) with a register offset. -/
def execStrhReg (c : Cond) (im : IndexMode) (u : Bool) (rn rd rm : Reg) (st : State) : Out :=
  lsOp c true im rn rd (some rm) st (storeReg st.privilege 2 im u rn rd (st.reg rm) st)

/-- LDRD (R435) with an immediate offset. -/
def execLdrdImm (c : Cond) (im : IndexMode) (u : Bool) (rn rd : Reg) (imm8 : BitVec 8) (st : State) : Out :=
  whenCond c st (pairChecks true im rn rd none st (loadPair im u rn rd (offset8 imm8) st))

/-- LDRD (R435) with a register offset. -/
def execLdrdReg (c : Cond) (im : IndexMode) (u : Bool) (rn rd rm : Reg) (st : State) : Out :=
  whenCond c st (pairChecks true im rn rd (some rm) st (loadPair im u rn rd (st.reg rm) st))

/-- STRD (R443) with an immediate offset. -/
def execStrdImm (c : Cond) (im : IndexMode) (u : Bool) (rn rd : Reg) (imm8 : BitVec 8) (st : State) : Out :=
  whenCond c st (pairChecks false im rn rd none st (storePair im u rn rd (offset8 imm8) st))

/-- STRD (R443) with a register offset. -/
def execStrdReg (c : Cond) (im : IndexMode) (u : Bool) (rn rd rm : Reg) (st : State) : Out :=
  whenCond c st (pairChecks false im rn rd (some rm) st (storePair im u rn rd (st.reg rm) st))

/-- LDRH (R436) with an immediate offset. -/
def execLdrhImm (c : Cond) (im : IndexMode) (u : Bool) (rn rd : Reg) (imm8 : BitVec 8) (st : State) : Out :=
  lsOp c true im rn rd none st (loadReg st.privilege 2 zeroExtended im u rn rd (offset8 imm8) st)

/-- LDRH (R436) with a register offset. -/
def execLdrhReg (c : Cond) (im : IndexMode) (u : Bool) (rn rd rm : Reg) (st : State) : Out :=
  lsOp c true im rn rd (some rm) st (loadReg st.privilege 2 zeroExtended im u rn rd (st.reg rm) st)

/-- LDRSB (R437) with an immediate offset. -/
def execLdrsbImm (c : Cond) (im : IndexMode) (u : Bool) (rn rd : Reg) (imm8 : BitVec 8) (st : State) : Out :=
  lsOp c true im rn rd none st (loadReg st.privilege 1 signedByte im u rn rd (offset8 imm8) st)

/-- LDRSB (R437) with a register offset. -/
def execLdrsbReg (c : Cond) (im : IndexMode) (u : Bool) (rn rd rm : Reg) (st : State) : Out :=
  lsOp c true im rn rd (some rm) st (loadReg st.privilege 1 signedByte im u rn rd (st.reg rm) st)

/-- LDRSH (R438) with an immediate offset. -/
def execLdrshImm (c : Cond) (im : IndexMode) (u : Bool) (rn rd : Reg) (imm8 : BitVec 8) (st : State) : Out :=
  lsOp c true im rn rd none st (loadReg st.privilege 2 signedHalf im u rn rd (offset8 imm8) st)

/-- LDRSH (R438) with a register offset. -/
def execLdrshReg (c : Cond) (im : IndexMode) (u : Bool) (rn rd rm : Reg) (st : State) : Out :=
  lsOp c true im rn rd (some rm) st (loadReg st.privilege 2 signedHalf im u rn rd (st.reg rm) st)

/-- LDREX (R446). -/
def execLdrex (c : Cond) (rn rd : Reg) (st : State) : Out :=
  let a := st.reg rn
  whenCond c st (unlessPc [rn, rd]
    (afterLoad st (st.load st.privilege 4 a) fun data =>
      advance ({ st with monitor := some (monitorTag st.platform a) }.setReg rd data)))

/-- STREX (R447): Rd takes 0 where it stored and 1 where it did not (notes/assumptions/29.md). -/
def execStrex (c : Cond) (rn rd rm : Reg) (st : State) : Out :=
  let a := st.reg rn
  whenCond c st (unlessPc [rn, rd, rm] (unlessSame rd rn (unlessSame rd rm (whenAligned 4 a st
    (if st.monitor = some (monitorTag st.platform a) then
      afterLoad st (st.store st.privilege 4 a (st.reg rm)) fun t => advance ({ t with monitor := none }.setReg rd 0)
    else advance ({ st with monitor := none }.setReg rd 1))))))

/-- PLD (R448): a hint with no effect. -/
def execPldImm (_u : Bool) (_rn : Reg) (_imm12 : BitVec 12) (st : State) : Out :=
  advance st

/-- PLD (R448): a hint with no effect; R15 as the offset register is UNPREDICTABLE. -/
def execPldReg (_u : Bool) (_rn : Reg) (_imm5 : BitVec 5) (_ty : ShiftType) (rm : Reg) (st : State) : Out :=
  unlessPc [rm] (advance st)

end Sys2Proof.Machine
end

