-- ==== Sys2Proof/Machine/LoadStoreMultiple.lean ====
section
/-! DEFINITION. Load and store multiple, RFE, SRS, SWP and SWPB (48_load_store_multiple_semaphore.md). -/
namespace Sys2Proof.Machine

/-- The restrictions common to LDM and STM (R479): Rn not R15, the list not empty. -/
def blockChecks (c : Cond) (rn : Reg) (list : BitVec 16) (s : State) (o : Out) : Out :=
  whenCond c s (unlessPc [rn] (if list = 0 then .fault .emptyList else o))

/-- The registers R0 to R14 of a list, rising (R473). -/
def lowRegs (list : BitVec 16) : List Reg := (regList list).filter (fun r => r != 15)

/-- A load of the registers of a list, of a mode (R474 to R476): the words, or the abort of R479. -/
def loadBlockOf (am : BlockMode) (rn : Reg) (list : BitVec 16) (m : Mode) (s : State) (k : List Word → Out) : Out :=
  let n := (regList list).length
  match s.loadBlock (blockStart am (s.reg rn) n) n with
  | .ok ws => k ws
  | .abort d => abortedLoad s m rn ((regList list).take d)
  | .fault f => .fault f

/-- A store of words, then base writeback (R477, R478). -/
def storeBlockOf (am : BlockMode) (w : Bool) (rn : Reg) (ws : List Word) (s : State) : Out :=
  let a := blockStart am (s.reg rn) ws.length
  afterStore s a (s.storeBlock a ws) fun t => advance (t.writeBack w rn (blockEnd am (s.reg rn) ws.length))

/-- User or System mode, where the User-bank forms are UNPREDICTABLE (R475, R478). -/
def State.userOrSystem (s : State) : Bool := s.mode == .usr || s.mode == .sys

/-- The words STM (1) stores (R477): the base register, where it is in the list with writeback and is not the lowest, is
a free value (notes/assumptions/15.md). -/
def stmValue (w : Bool) (rn : Reg) (lowest : Option Reg) (s : State) (r : Reg) : Word :=
  if w && r == rn && lowest != some rn then s.freeValue else s.storedReg s.mode r

/-- LDM (1) (R474). -/
def loadMultiple (am : BlockMode) (w : Bool) (rn : Reg) (list : BitVec 16) (s : State) : Out :=
  if w && list.getLsbD rn.toNat then .fault .baseInList
  else
    loadBlockOf am rn list s.mode s fun ws =>
      let n := (regList list).length
      let t := (s.setRegsOf s.mode (lowRegs list) ws).writeBack w rn (blockEnd am (s.reg rn) n)
      if list.getLsbD 15 then interwork t (ws.getLastD 0) else advance t

/-- LDM (2) (R475): the User-mode registers. -/
def loadUser (am : BlockMode) (rn : Reg) (list : BitVec 16) (s : State) : Out :=
  if s.userOrSystem then .fault .modeForbidden
  else loadBlockOf am rn list .usr s fun ws => advance (s.setRegsOf .usr (lowRegs list) ws)

/-- LDM (3) (R476): exception return. -/
def loadReturn (am : BlockMode) (w : Bool) (rn : Reg) (list : BitVec 16) (s : State) : Out :=
  match s.spsr? with
  | none => .fault .noSpsr
  | some psr =>
    if w && list.getLsbD rn.toNat then .fault .baseInList
    else
      loadBlockOf am rn list s.mode s fun ws =>
        let n := (regList list).length
        exceptionReturn ((s.setRegsOf s.mode (lowRegs list) ws).writeBack w rn (blockEnd am (s.reg rn) n)) psr
          (ws.getLastD 0)

/-- STM (1) (R477). -/
def storeMultiple (am : BlockMode) (w : Bool) (rn : Reg) (list : BitVec 16) (s : State) : Out :=
  let rs := regList list
  let ws := rs.map (stmValue w rn rs.head? s)
  storeBlockOf am w rn ws (if w && rs.contains rn && rs.head? != some rn then s.drawn else s)

/-- STM (2) (R478): the User-mode registers. -/
def storeUser (am : BlockMode) (rn : Reg) (list : BitVec 16) (s : State) : Out :=
  if s.userOrSystem then .fault .modeForbidden
  else storeBlockOf am false rn ((regList list).map (s.storedReg .usr)) s

/-- The written-back value of RFE and SRS (R480, R481). -/
def pairEnd (am : BlockMode) (base : Word) : Word := if am.u then base + 8 else base - 8

/-- RFE (R480). -/
def returnFromException (am : BlockMode) (w : Bool) (rn : Reg) (s : State) : Out :=
  if !s.privileged then .fault .modeForbidden
  else
    afterLoad s (s.loadBlock (blockStart am (s.reg rn) 2) 2) fun ws =>
      let psr := ws.getD 1 0
      if psr &&& unallocMask != 0 then .fault .reservedPsrBit
      else exceptionReturn (s.writeBack w rn (pairEnd am (s.reg rn))) psr (ws.getD 0 0)

/-- SRS (R481): on the stack of the mode the instruction names. -/
def saveReturnState (am : BlockMode) (w : Bool) (mode : BitVec 5) (s : State) : Out :=
  match s.spsr? with
  | none => .fault .noSpsr
  | some psr =>
    match modeOfNumber mode with
    | none => .fault .illegalMode
    | some m =>
      let base := s.regOf m 13
      let a := blockStart am base 2
      afterStore s a (s.storeBlock a [s.reg 14, psr]) fun t =>
        advance (if w then t.setRegOf m 13 (pairEnd am base) else t)

/-- SWP and SWPB (R490, R491): a read, then a write of the value Rm had; if either aborts nothing is changed. -/
def swap (c : Cond) (n : Nat) (rn rd rm : Reg) (s : State) : Out :=
  let a := s.reg rn
  whenCond c s (unlessPc [rn, rd, rm] (unlessSame rn rm (unlessSame rn rd
    (afterLoad s (s.load s.privilege n a) fun temp =>
      afterLoad s (s.store s.privilege n a (s.reg rm)) fun t => advance (t.setReg rd temp)))))

/-- LDM__1 (R474). -/
def execLdm1 (c : Cond) (am : BlockMode) (w : Bool) (rn : Reg) (list : BitVec 16) (st : State) : Out :=
  blockChecks c rn list st (loadMultiple am w rn list st)

/-- LDM__2 (R475). -/
def execLdm2 (c : Cond) (am : BlockMode) (rn : Reg) (list : BitVec 15) (st : State) : Out :=
  blockChecks c rn (list.setWidth 16) st (loadUser am rn (list.setWidth 16) st)

/-- LDM__3 (R476). -/
def execLdm3 (c : Cond) (am : BlockMode) (w : Bool) (rn : Reg) (list : BitVec 15) (st : State) : Out :=
  blockChecks c rn (1#1 ++ list) st (loadReturn am w rn (1#1 ++ list) st)

/-- STM__1 (R477). -/
def execStm1 (c : Cond) (am : BlockMode) (w : Bool) (rn : Reg) (list : BitVec 16) (st : State) : Out :=
  blockChecks c rn list st (storeMultiple am w rn list st)

/-- STM__2 (R478). -/
def execStm2 (c : Cond) (am : BlockMode) (rn : Reg) (list : BitVec 16) (st : State) : Out :=
  blockChecks c rn list st (storeUser am rn list st)

/-- RFE (R480): R15 is UNPREDICTABLE. -/
def execRfe (am : BlockMode) (w : Bool) (rn : Reg) (st : State) : Out :=
  unlessPc [rn] (returnFromException am w rn st)

/-- SRS (R481). -/
def execSrs (am : BlockMode) (w : Bool) (mode : BitVec 5) (st : State) : Out :=
  saveReturnState am w mode st

/-- SWP (R490). -/
def execSwp (c : Cond) (rn rd rm : Reg) (st : State) : Out :=
  swap c 4 rn rd rm st

/-- SWPB (R491). -/
def execSwpb (c : Cond) (rn rd rm : Reg) (st : State) : Out :=
  swap c 1 rn rd rm st

end Sys2Proof.Machine
end

