-- ==== Sys2Proof/Machine/Multiply.lean ====
section
/-! DEFINITION. The multiply instructions (43_multiply.md). R15 in any field is UNPREDICTABLE, and in the long forms
RdHi = RdLo (R261). Every source is read before a destination is written (R261 d). -/
namespace Sys2Proof.Machine

/-- The 64-bit value `x[RdHi] : x[RdLo]`. -/
def State.pair (s : State) (rdHi rdLo : Reg) : BitVec 64 := s.reg rdHi ++ s.reg rdLo

/-- A 32-bit result, with N and Z of it where S = 1; C and V are unaffected (R261 e). -/
def mulWrite (s : State) (sf : Bool) (rd : Reg) (v : Word) : Out :=
  advance (if sf then (s.setReg rd v).setFlags v s.c s.v else s.setReg rd v)

/-- A 64-bit result in two registers, with N and Z of all its bits where S = 1 (R284). -/
def longWrite (s : State) (sf : Bool) (rdHi rdLo : Reg) (p : BitVec 64) : Out :=
  let t := (s.setReg rdLo (p.extractLsb' 0 32)).setReg rdHi (p.extractLsb' 32 32)
  advance (if sf then t.setFlags64 p else t)

/-- The wrapped 32 bits of an exact sum, with Q set where it is outside the signed 32-bit range (R270). -/
def sumWrite (s : State) (rd : Reg) (sum : Int) : Out :=
  advance ((s.setReg rd (BitVec.ofInt 32 sum)).setQ (outside32 sum))

/-- A multiply with one destination: no field may name R15 (R261 a). -/
def mulOp (c : Cond) (regs : List Reg) (s : State) (o : Out) : Out := whenCond c s (unlessPc regs o)

/-- A multiply with two destinations: no field may name R15, and the two must differ (R261 a, b). -/
def longOp (c : Cond) (rdHi rdLo rs rm : Reg) (s : State) (o : Out) : Out :=
  whenCond c s (unlessPc [rdHi, rdLo, rs, rm] (unlessSame rdHi rdLo o))

/-- The product of two half-registers (R269). -/
def halfProduct (s : State) (rm : Reg) (x : Bool) (rs : Reg) (y : Bool) : Int :=
  (half (s.reg rm) x).toInt * (half (s.reg rs) y).toInt

/-- The top 32 bits of a signed 48-bit product of a register and a half-register (R272). -/
def wideProduct (s : State) (rm rs : Reg) (y : Bool) : Word :=
  (BitVec.ofInt 48 ((s.reg rm).toInt * (half (s.reg rs) y).toInt)).extractLsb' 16 32

/-- The top word of a signed 64-bit value, with 0x80000000 added first in the rounding variant (R286). -/
def topWord (r : Bool) (v : Int) : Word :=
  (BitVec.ofInt 64 (v + (if r then 0x80000000 else 0))).extractLsb' 32 32

/-- The signed product of two registers. -/
def signedProduct (s : State) (rm rs : Reg) : Int := (s.reg rm).toInt * (s.reg rs).toInt

/-- The second operand of the dual multiplies, its halfwords exchanged where X = 1 (R287). -/
def dualOperand (s : State) (rs : Reg) (x : Bool) : Word := if x then ror (s.reg rs) 16 else s.reg rs

/-- Bottom times bottom (R287). -/
def dualBottom (s : State) (rm rs : Reg) (x : Bool) : Int :=
  (half (s.reg rm) false).toInt * (half (dualOperand s rs x) false).toInt

/-- Top times top (R287). -/
def dualTop (s : State) (rm rs : Reg) (x : Bool) : Int :=
  (half (s.reg rm) true).toInt * (half (dualOperand s rs x) true).toInt

/-- MUL (R262). -/
def execMul (c : Cond) (s : Bool) (rd rs rm : Reg) (st : State) : Out :=
  mulOp c [rd, rs, rm] st (mulWrite st s rd (st.reg rm * st.reg rs))

/-- MLA (R263). -/
def execMla (c : Cond) (s : Bool) (rd rn rs rm : Reg) (st : State) : Out :=
  mulOp c [rd, rn, rs, rm] st (mulWrite st s rd (st.reg rm * st.reg rs + st.reg rn))

/-- UMAAL (R268): cannot overflow 64 bits. -/
def execUmaal (c : Cond) (rdHi rdLo rs rm : Reg) (st : State) : Out :=
  longOp c rdHi rdLo rs rm st (longWrite st false rdHi rdLo
    (BitVec.ofNat 64 ((st.reg rm).toNat * (st.reg rs).toNat + (st.reg rdLo).toNat + (st.reg rdHi).toNat)))

/-- UMULL (R264). -/
def execUmull (c : Cond) (s : Bool) (rdHi rdLo rs rm : Reg) (st : State) : Out :=
  longOp c rdHi rdLo rs rm st (longWrite st s rdHi rdLo
    (BitVec.ofNat 64 ((st.reg rm).toNat * (st.reg rs).toNat)))

/-- UMLAL (R265). -/
def execUmlal (c : Cond) (s : Bool) (rdHi rdLo rs rm : Reg) (st : State) : Out :=
  longOp c rdHi rdLo rs rm st (longWrite st s rdHi rdLo
    (BitVec.ofNat 64 ((st.reg rm).toNat * (st.reg rs).toNat + (st.pair rdHi rdLo).toNat)))

/-- SMULL (R266). -/
def execSmull (c : Cond) (s : Bool) (rdHi rdLo rs rm : Reg) (st : State) : Out :=
  longOp c rdHi rdLo rs rm st (longWrite st s rdHi rdLo (BitVec.ofInt 64 (signedProduct st rm rs)))

/-- SMLAL (R267). -/
def execSmlal (c : Cond) (s : Bool) (rdHi rdLo rs rm : Reg) (st : State) : Out :=
  longOp c rdHi rdLo rs rm st (longWrite st s rdHi rdLo
    (BitVec.ofInt 64 (signedProduct st rm rs + (st.pair rdHi rdLo).toInt)))

/-- SMLA<x><y> (R270): Q where the addition overflows. -/
def execSmlaXY (c : Cond) (rd rn rs : Reg) (y x : Bool) (rm : Reg) (st : State) : Out :=
  mulOp c [rd, rn, rs, rm] st (sumWrite st rd (halfProduct st rm x rs y + (st.reg rn).toInt))

/-- SMLAW<y> (R273): Q where the addition overflows. -/
def execSmlawY (c : Cond) (rd rn rs : Reg) (y : Bool) (rm : Reg) (st : State) : Out :=
  mulOp c [rd, rn, rs, rm] st (sumWrite st rd ((wideProduct st rm rs y).toInt + (st.reg rn).toInt))

/-- SMULW<y> (R272). -/
def execSmulwY (c : Cond) (rd rs : Reg) (y : Bool) (rm : Reg) (st : State) : Out :=
  mulOp c [rd, rs, rm] st (mulWrite st false rd (wideProduct st rm rs y))

/-- SMLAL<x><y> (R271): wraps modulo 2^64. -/
def execSmlalXY (c : Cond) (rdHi rdLo rs : Reg) (y x : Bool) (rm : Reg) (st : State) : Out :=
  longOp c rdHi rdLo rs rm st (longWrite st false rdHi rdLo
    (BitVec.ofInt 64 (halfProduct st rm x rs y + (st.pair rdHi rdLo).toInt)))

/-- SMUL<x><y> (R269). -/
def execSmulXY (c : Cond) (rd rs : Reg) (y x : Bool) (rm : Reg) (st : State) : Out :=
  mulOp c [rd, rs, rm] st (mulWrite st false rd (BitVec.ofInt 32 (halfProduct st rm x rs y)))

/-- SMUAD (R277): Q where the sum overflows. -/
def execSmuad (c : Cond) (rd rs : Reg) (x : Bool) (rm : Reg) (st : State) : Out :=
  mulOp c [rd, rs, rm] st (sumWrite st rd (dualBottom st rm rs x + dualTop st rm rs x))

/-- SMUSD (R278). -/
def execSmusd (c : Cond) (rd rs : Reg) (x : Bool) (rm : Reg) (st : State) : Out :=
  mulOp c [rd, rs, rm] st (mulWrite st false rd (BitVec.ofInt 32 (dualBottom st rm rs x - dualTop st rm rs x)))

/-- SMLAD (R279): Q where the sum overflows. -/
def execSmlad (c : Cond) (rd rn rs : Reg) (x : Bool) (rm : Reg) (st : State) : Out :=
  mulOp c [rd, rn, rs, rm] st
    (sumWrite st rd (dualBottom st rm rs x + dualTop st rm rs x + (st.reg rn).toInt))

/-- SMLSD (R280): Q where the sum overflows. -/
def execSmlsd (c : Cond) (rd rn rs : Reg) (x : Bool) (rm : Reg) (st : State) : Out :=
  mulOp c [rd, rn, rs, rm] st
    (sumWrite st rd (dualBottom st rm rs x - dualTop st rm rs x + (st.reg rn).toInt))

/-- SMLALD (R281): wraps modulo 2^64. -/
def execSmlald (c : Cond) (rdHi rdLo rs : Reg) (x : Bool) (rm : Reg) (st : State) : Out :=
  longOp c rdHi rdLo rs rm st (longWrite st false rdHi rdLo
    (BitVec.ofInt 64 ((st.pair rdHi rdLo).toInt + dualBottom st rm rs x + dualTop st rm rs x)))

/-- SMLSLD (R282): wraps modulo 2^64. -/
def execSmlsld (c : Cond) (rdHi rdLo rs : Reg) (x : Bool) (rm : Reg) (st : State) : Out :=
  longOp c rdHi rdLo rs rm st (longWrite st false rdHi rdLo
    (BitVec.ofInt 64 ((st.pair rdHi rdLo).toInt + dualBottom st rm rs x - dualTop st rm rs x)))

/-- SMMUL (R274). -/
def execSmmul (c : Cond) (rd rs : Reg) (r : Bool) (rm : Reg) (st : State) : Out :=
  mulOp c [rd, rs, rm] st (mulWrite st false rd (topWord r (signedProduct st rm rs)))

/-- SMMLA (R275). -/
def execSmmla (c : Cond) (rd rn rs : Reg) (r : Bool) (rm : Reg) (st : State) : Out :=
  mulOp c [rd, rn, rs, rm] st
    (mulWrite st false rd (topWord r ((st.reg rn).toInt * 2 ^ 32 + signedProduct st rm rs)))

/-- SMMLS (R276): the subtraction is on 64 bits (D29). -/
def execSmmls (c : Cond) (rd rn rs : Reg) (r : Bool) (rm : Reg) (st : State) : Out :=
  mulOp c [rd, rn, rs, rm] st
    (mulWrite st false rd (topWord r ((st.reg rn).toInt * 2 ^ 32 - signedProduct st rm rs)))

end Sys2Proof.Machine
end

