-- ==== Sys2Proof/Machine/Parallel.lean ====
section
/-! DEFINITION. The parallel additions and subtractions (44_parallel_add_sub.md): six prefixes of six operations, by lanes
(R302 to R305). -/
namespace Sys2Proof.Machine

/-- The six prefixes (R304). -/
inductive ParPrefix where
  | s | q | sh | u | uq | uh
deriving DecidableEq, Repr

/-- The six basic operations (R302). -/
inductive ParOp where
  | add16 | addsubx | subaddx | sub16 | add8 | sub8
deriving DecidableEq, Repr

/-- The prefix reads its operands as signed (R304). -/
def ParPrefix.signed : ParPrefix → Bool
  | .s => true | .q => true | .sh => true | .u => false | .uq => false | .uh => false

/-- The prefix writes GE (R303). -/
def ParPrefix.setsGe : ParPrefix → Bool
  | .s => true | .u => true | .q => false | .sh => false | .uq => false | .uh => false

/-- A lane: its result, and the GE bit it would write. -/
structure Lane (w : Nat) where
  value : BitVec w
  ge : Bool
deriving DecidableEq, Repr

/-- The exact result of a lane (R304, R305): a sum, or a difference where `sub`. -/
def laneExact (p : ParPrefix) (sub : Bool) {w : Nat} (a b : BitVec w) : Int :=
  let ia := if p.signed then a.toInt else (a.toNat : Int)
  let ib := if p.signed then b.toInt else (b.toNat : Int)
  if sub then ia - ib else ia + ib

/-- The result of a lane (R304). -/
def laneValue (p : ParPrefix) (w : Nat) (r : Int) : BitVec w :=
  match p with
  | .s => BitVec.ofInt w r
  | .q => BitVec.ofInt w (signedSat r w)
  | .sh => BitVec.ofInt w (r / 2)
  | .u => BitVec.ofInt w r
  | .uq => BitVec.ofInt w (unsignedSat r w)
  | .uh => BitVec.ofInt w (r / 2)

/-- The GE bit of a lane (R303): an unsigned addition carries out of the lane; every other lane is not negative. -/
def laneGe (p : ParPrefix) (sub : Bool) (w : Nat) (r : Int) : Bool :=
  if p.signed || sub then decide (0 ≤ r) else decide (2 ^ w ≤ r)

/-- One lane (R305). -/
def lane (p : ParPrefix) (sub : Bool) {w : Nat} (a b : BitVec w) : Lane w :=
  ⟨laneValue p w (laneExact p sub a b), laneGe p sub w (laneExact p sub a b)⟩

/-- What an operation gives: the result and the four GE bits. -/
structure ParResult where
  value : Word
  ge : BitVec 4
deriving DecidableEq, Repr

/-- Two halfword lanes: each writes two GE bits (R303). -/
def ofHalves (top bottom : Lane 16) : ParResult :=
  ⟨top.value ++ bottom.value,
    BitVec.ofBool top.ge ++ BitVec.ofBool top.ge ++ BitVec.ofBool bottom.ge ++ BitVec.ofBool bottom.ge⟩

/-- Four byte lanes: lane i writes GE[i] (R303). -/
def ofBytes (l3 l2 l1 l0 : Lane 8) : ParResult :=
  ⟨l3.value ++ l2.value ++ l1.value ++ l0.value,
    BitVec.ofBool l3.ge ++ BitVec.ofBool l2.ge ++ BitVec.ofBool l1.ge ++ BitVec.ofBool l0.ge⟩

/-- `ParallelAddSub` on values (R302, R305). -/
def parCompute (p : ParPrefix) (op : ParOp) (rn rm : Word) : ParResult :=
  match op with
  | .add16 => ofHalves (lane p false (half rn true) (half rm true)) (lane p false (half rn false) (half rm false))
  | .addsubx => ofHalves (lane p false (half rn true) (half rm false)) (lane p true (half rn false) (half rm true))
  | .subaddx => ofHalves (lane p true (half rn true) (half rm false)) (lane p false (half rn false) (half rm true))
  | .sub16 => ofHalves (lane p true (half rn true) (half rm true)) (lane p true (half rn false) (half rm false))
  | .add8 =>
    ofBytes (lane p false (byteOf rn 3) (byteOf rm 3)) (lane p false (byteOf rn 2) (byteOf rm 2))
      (lane p false (byteOf rn 1) (byteOf rm 1)) (lane p false (byteOf rn 0) (byteOf rm 0))
  | .sub8 =>
    ofBytes (lane p true (byteOf rn 3) (byteOf rm 3)) (lane p true (byteOf rn 2) (byteOf rm 2))
      (lane p true (byteOf rn 1) (byteOf rm 1)) (lane p true (byteOf rn 0) (byteOf rm 0))

/-- `ParallelAddSub` (R305): GE is written by the S and U forms only. R15 is UNPREDICTABLE (R301). -/
def parallel (p : ParPrefix) (op : ParOp) (c : Cond) (rn rd rm : Reg) (s : State) : Out :=
  let r := parCompute p op (s.reg rn) (s.reg rm)
  whenCond c s (unlessPc [rn, rd, rm]
    (advance (if p.setsGe then (s.setReg rd r.value).setGe r.ge else s.setReg rd r.value)))

/-- SADD16 (R312). -/
def execSadd16 (c : Cond) (rn rd rm : Reg) (st : State) : Out :=
  parallel .s .add16 c rn rd rm st

/-- SADDSUBX (R314). -/
def execSaddsubx (c : Cond) (rn rd rm : Reg) (st : State) : Out :=
  parallel .s .addsubx c rn rd rm st

/-- SSUBADDX (R317). -/
def execSsubaddx (c : Cond) (rn rd rm : Reg) (st : State) : Out :=
  parallel .s .subaddx c rn rd rm st

/-- SSUB16 (R315). -/
def execSsub16 (c : Cond) (rn rd rm : Reg) (st : State) : Out :=
  parallel .s .sub16 c rn rd rm st

/-- SADD8 (R313). -/
def execSadd8 (c : Cond) (rn rd rm : Reg) (st : State) : Out :=
  parallel .s .add8 c rn rd rm st

/-- SSUB8 (R316). -/
def execSsub8 (c : Cond) (rn rd rm : Reg) (st : State) : Out :=
  parallel .s .sub8 c rn rd rm st

/-- QADD16 (R306). -/
def execQadd16 (c : Cond) (rn rd rm : Reg) (st : State) : Out :=
  parallel .q .add16 c rn rd rm st

/-- QADDSUBX (R308). -/
def execQaddsubx (c : Cond) (rn rd rm : Reg) (st : State) : Out :=
  parallel .q .addsubx c rn rd rm st

/-- QSUBADDX (R311). -/
def execQsubaddx (c : Cond) (rn rd rm : Reg) (st : State) : Out :=
  parallel .q .subaddx c rn rd rm st

/-- QSUB16 (R309). -/
def execQsub16 (c : Cond) (rn rd rm : Reg) (st : State) : Out :=
  parallel .q .sub16 c rn rd rm st

/-- QADD8 (R307). -/
def execQadd8 (c : Cond) (rn rd rm : Reg) (st : State) : Out :=
  parallel .q .add8 c rn rd rm st

/-- QSUB8 (R310). -/
def execQsub8 (c : Cond) (rn rd rm : Reg) (st : State) : Out :=
  parallel .q .sub8 c rn rd rm st

/-- SHADD16 (R318). -/
def execShadd16 (c : Cond) (rn rd rm : Reg) (st : State) : Out :=
  parallel .sh .add16 c rn rd rm st

/-- SHADDSUBX (R320). -/
def execShaddsubx (c : Cond) (rn rd rm : Reg) (st : State) : Out :=
  parallel .sh .addsubx c rn rd rm st

/-- SHSUBADDX (R323). -/
def execShsubaddx (c : Cond) (rn rd rm : Reg) (st : State) : Out :=
  parallel .sh .subaddx c rn rd rm st

/-- SHSUB16 (R321). -/
def execShsub16 (c : Cond) (rn rd rm : Reg) (st : State) : Out :=
  parallel .sh .sub16 c rn rd rm st

/-- SHADD8 (R319). -/
def execShadd8 (c : Cond) (rn rd rm : Reg) (st : State) : Out :=
  parallel .sh .add8 c rn rd rm st

/-- SHSUB8 (R322). -/
def execShsub8 (c : Cond) (rn rd rm : Reg) (st : State) : Out :=
  parallel .sh .sub8 c rn rd rm st

/-- UADD16 (R324). -/
def execUadd16 (c : Cond) (rn rd rm : Reg) (st : State) : Out :=
  parallel .u .add16 c rn rd rm st

/-- UADDSUBX (R326). -/
def execUaddsubx (c : Cond) (rn rd rm : Reg) (st : State) : Out :=
  parallel .u .addsubx c rn rd rm st

/-- USUBADDX (R329). -/
def execUsubaddx (c : Cond) (rn rd rm : Reg) (st : State) : Out :=
  parallel .u .subaddx c rn rd rm st

/-- USUB16 (R327). -/
def execUsub16 (c : Cond) (rn rd rm : Reg) (st : State) : Out :=
  parallel .u .sub16 c rn rd rm st

/-- UADD8 (R325). -/
def execUadd8 (c : Cond) (rn rd rm : Reg) (st : State) : Out :=
  parallel .u .add8 c rn rd rm st

/-- USUB8 (R328). -/
def execUsub8 (c : Cond) (rn rd rm : Reg) (st : State) : Out :=
  parallel .u .sub8 c rn rd rm st

/-- UQADD16 (R336). -/
def execUqadd16 (c : Cond) (rn rd rm : Reg) (st : State) : Out :=
  parallel .uq .add16 c rn rd rm st

/-- UQADDSUBX (R338). -/
def execUqaddsubx (c : Cond) (rn rd rm : Reg) (st : State) : Out :=
  parallel .uq .addsubx c rn rd rm st

/-- UQSUBADDX (R341). -/
def execUqsubaddx (c : Cond) (rn rd rm : Reg) (st : State) : Out :=
  parallel .uq .subaddx c rn rd rm st

/-- UQSUB16 (R339). -/
def execUqsub16 (c : Cond) (rn rd rm : Reg) (st : State) : Out :=
  parallel .uq .sub16 c rn rd rm st

/-- UQADD8 (R337). -/
def execUqadd8 (c : Cond) (rn rd rm : Reg) (st : State) : Out :=
  parallel .uq .add8 c rn rd rm st

/-- UQSUB8 (R340). -/
def execUqsub8 (c : Cond) (rn rd rm : Reg) (st : State) : Out :=
  parallel .uq .sub8 c rn rd rm st

/-- UHADD16 (R330). -/
def execUhadd16 (c : Cond) (rn rd rm : Reg) (st : State) : Out :=
  parallel .uh .add16 c rn rd rm st

/-- UHADDSUBX (R332). -/
def execUhaddsubx (c : Cond) (rn rd rm : Reg) (st : State) : Out :=
  parallel .uh .addsubx c rn rd rm st

/-- UHSUBADDX (R335). -/
def execUhsubaddx (c : Cond) (rn rd rm : Reg) (st : State) : Out :=
  parallel .uh .subaddx c rn rd rm st

/-- UHSUB16 (R333). -/
def execUhsub16 (c : Cond) (rn rd rm : Reg) (st : State) : Out :=
  parallel .uh .sub16 c rn rd rm st

/-- UHADD8 (R331). -/
def execUhadd8 (c : Cond) (rn rd rm : Reg) (st : State) : Out :=
  parallel .uh .add8 c rn rd rm st

/-- UHSUB8 (R334). -/
def execUhsub8 (c : Cond) (rn rd rm : Reg) (st : State) : Out :=
  parallel .uh .sub8 c rn rd rm st

end Sys2Proof.Machine
end

