-- ==== Sys2Proof/Machine/StatusRegister.lean ====
section
/-! DEFINITION. The status register access instructions (46_status_register.md). -/
namespace Sys2Proof.Machine

/-- The byte fields a `mask` selects (10_state.md R51; R403). -/
def byteMask (mask : BitVec 4) : Word :=
  (if mask.getLsbD 0 then 0x000000FF else 0) ||| (if mask.getLsbD 1 then 0x0000FF00 else 0) |||
    (if mask.getLsbD 2 then 0x00FF0000 else 0) ||| (if mask.getLsbD 3 then 0xFF000000 else 0)

/-- The bits of the CPSR an MSR may write (R403): in User mode only the user bits. -/
def msrCpsrMask (s : State) (mask : BitVec 4) : Word :=
  byteMask mask &&& (if s.privileged then userMask ||| privMask else userMask)

/-- MSR to the CPSR (R403). The mode it leaves must be one of the seven. -/
def msrCpsr (s : State) (mask : BitVec 4) (operand : Word) : Out :=
  if s.privileged && operand &&& stateMask != 0 then .fault .stateBits
  else
    let p := withMask s.cpsr (msrCpsrMask s mask) operand
    if (modeOfNumber (modeBits p)).isNone then .fault .illegalMode else advance { s with cpsr := p }

/-- MSR to the SPSR of the current mode (R403). -/
def msrSpsr (s : State) (mask : BitVec 4) (operand : Word) : Out :=
  match s.spsr? with
  | none => .fault .noSpsr
  | some p =>
    advance (s.setSpsrOf s.mode (withMask p (byteMask mask &&& (userMask ||| privMask ||| stateMask)) operand))

/-- MSR (R403): an operand with a reserved bit set is UNPREDICTABLE, whatever the mask. -/
def msr (s : State) (spsr : Bool) (mask : BitVec 4) (operand : Word) : Out :=
  if operand &&& unallocMask != 0 then .fault .reservedPsrBit
  else if spsr then msrSpsr s mask operand
  else msrCpsr s mask operand

/-- The UNPREDICTABLE encodings of CPS that name a legal mode or none (R406). -/
def badCps (imod : BitVec 2) (mmod a i f : Bool) (mode : BitVec 5) : Bool :=
  imod == 0b01 || (imod == 0b00 && (!mmod || a || i || f)) || (imod.getLsbD 1 && !a && !i && !f) || (!mmod && mode != 0)

/-- The CPSR after CPS in a privileged mode (R406). -/
def cpsPsr (p : Word) (imod : BitVec 2) (a i f : Bool) (m : Option Mode) : Word :=
  let en := imod.getLsbD 1
  let v := imod.getLsbD 0
  let p := if en && a then withBit p 8 v else p
  let p := if en && i then withBit p 7 v else p
  let p := if en && f then withBit p 6 v else p
  match m with
  | some m => withMode p m
  | none => p

/-- MRS (R402): R15 is UNPREDICTABLE, and the SPSR in a mode without one. -/
def execMrs (c : Cond) (r : Bool) (rd : Reg) (st : State) : Out :=
  whenCond c st (unlessPc [rd]
    (if r then
      match st.spsr? with
      | some p => advance (st.setReg rd p)
      | none => .fault .noSpsr
    else advance (st.setReg rd st.cpsr)))

/-- MSR (R404). -/
def execMsrImm (c : Cond) (r : Bool) (mask rot : BitVec 4) (imm8 : BitVec 8) (st : State) : Out :=
  whenCond c st (msr st r mask (shifterImm st.c rot imm8).value)

/-- MSR (R405): R15 is UNPREDICTABLE. -/
def execMsrReg (c : Cond) (r : Bool) (mask : BitVec 4) (rm : Reg) (st : State) : Out :=
  whenCond c st (unlessPc [rm] (msr st r mask (st.reg rm)))

/-- CPS (R406): no effect in User mode. -/
def execCps (imod : BitVec 2) (mmod a i f : Bool) (mode : BitVec 5) (st : State) : Out :=
  if badCps imod mmod a i f mode then .fault .badCps
  else if mmod && (modeOfNumber mode).isNone then .fault .illegalMode
  else if st.privileged then
    advance { st with cpsr := cpsPsr st.cpsr imod a i f (if mmod then modeOfNumber mode else none) }
  else advance st

/-- SETEND (R407). -/
def execSetend (e : Bool) (st : State) : Out :=
  advance { st with cpsr := withBit st.cpsr 9 e }

end Sys2Proof.Machine
end

