-- ==== Sys2Proof/Machine/Dispatch.lean ====
section
/-! DEFINITION. The one match over the instructions: each arm is one call of its meaning. -/
namespace Sys2Proof.Machine

/-- What an instruction does. -/
def exec (i : Instr) (s : State) : Host.Outcome State Fault Refusal :=
  match i with
  -- data processing (42_data_processing.md)
  | .andShift c sf rn rd imm5 ty rm => Sys2Proof.Machine.execAndShift c sf rn rd imm5 ty rm s
  | .andReg c sf rn rd rs ty rm => Sys2Proof.Machine.execAndReg c sf rn rd rs ty rm s
  | .andImm c sf rn rd rot imm8 => Sys2Proof.Machine.execAndImm c sf rn rd rot imm8 s
  | .eorShift c sf rn rd imm5 ty rm => Sys2Proof.Machine.execEorShift c sf rn rd imm5 ty rm s
  | .eorReg c sf rn rd rs ty rm => Sys2Proof.Machine.execEorReg c sf rn rd rs ty rm s
  | .eorImm c sf rn rd rot imm8 => Sys2Proof.Machine.execEorImm c sf rn rd rot imm8 s
  | .subShift c sf rn rd imm5 ty rm => Sys2Proof.Machine.execSubShift c sf rn rd imm5 ty rm s
  | .subReg c sf rn rd rs ty rm => Sys2Proof.Machine.execSubReg c sf rn rd rs ty rm s
  | .subImm c sf rn rd rot imm8 => Sys2Proof.Machine.execSubImm c sf rn rd rot imm8 s
  | .rsbShift c sf rn rd imm5 ty rm => Sys2Proof.Machine.execRsbShift c sf rn rd imm5 ty rm s
  | .rsbReg c sf rn rd rs ty rm => Sys2Proof.Machine.execRsbReg c sf rn rd rs ty rm s
  | .rsbImm c sf rn rd rot imm8 => Sys2Proof.Machine.execRsbImm c sf rn rd rot imm8 s
  | .addShift c sf rn rd imm5 ty rm => Sys2Proof.Machine.execAddShift c sf rn rd imm5 ty rm s
  | .addReg c sf rn rd rs ty rm => Sys2Proof.Machine.execAddReg c sf rn rd rs ty rm s
  | .addImm c sf rn rd rot imm8 => Sys2Proof.Machine.execAddImm c sf rn rd rot imm8 s
  | .adcShift c sf rn rd imm5 ty rm => Sys2Proof.Machine.execAdcShift c sf rn rd imm5 ty rm s
  | .adcReg c sf rn rd rs ty rm => Sys2Proof.Machine.execAdcReg c sf rn rd rs ty rm s
  | .adcImm c sf rn rd rot imm8 => Sys2Proof.Machine.execAdcImm c sf rn rd rot imm8 s
  | .sbcShift c sf rn rd imm5 ty rm => Sys2Proof.Machine.execSbcShift c sf rn rd imm5 ty rm s
  | .sbcReg c sf rn rd rs ty rm => Sys2Proof.Machine.execSbcReg c sf rn rd rs ty rm s
  | .sbcImm c sf rn rd rot imm8 => Sys2Proof.Machine.execSbcImm c sf rn rd rot imm8 s
  | .rscShift c sf rn rd imm5 ty rm => Sys2Proof.Machine.execRscShift c sf rn rd imm5 ty rm s
  | .rscReg c sf rn rd rs ty rm => Sys2Proof.Machine.execRscReg c sf rn rd rs ty rm s
  | .rscImm c sf rn rd rot imm8 => Sys2Proof.Machine.execRscImm c sf rn rd rot imm8 s
  | .tstShift c rn imm5 ty rm => Sys2Proof.Machine.execTstShift c rn imm5 ty rm s
  | .tstReg c rn rs ty rm => Sys2Proof.Machine.execTstReg c rn rs ty rm s
  | .tstImm c rn rot imm8 => Sys2Proof.Machine.execTstImm c rn rot imm8 s
  | .teqShift c rn imm5 ty rm => Sys2Proof.Machine.execTeqShift c rn imm5 ty rm s
  | .teqReg c rn rs ty rm => Sys2Proof.Machine.execTeqReg c rn rs ty rm s
  | .teqImm c rn rot imm8 => Sys2Proof.Machine.execTeqImm c rn rot imm8 s
  | .cmpShift c rn imm5 ty rm => Sys2Proof.Machine.execCmpShift c rn imm5 ty rm s
  | .cmpReg c rn rs ty rm => Sys2Proof.Machine.execCmpReg c rn rs ty rm s
  | .cmpImm c rn rot imm8 => Sys2Proof.Machine.execCmpImm c rn rot imm8 s
  | .cmnShift c rn imm5 ty rm => Sys2Proof.Machine.execCmnShift c rn imm5 ty rm s
  | .cmnReg c rn rs ty rm => Sys2Proof.Machine.execCmnReg c rn rs ty rm s
  | .cmnImm c rn rot imm8 => Sys2Proof.Machine.execCmnImm c rn rot imm8 s
  | .orrShift c sf rn rd imm5 ty rm => Sys2Proof.Machine.execOrrShift c sf rn rd imm5 ty rm s
  | .orrReg c sf rn rd rs ty rm => Sys2Proof.Machine.execOrrReg c sf rn rd rs ty rm s
  | .orrImm c sf rn rd rot imm8 => Sys2Proof.Machine.execOrrImm c sf rn rd rot imm8 s
  | .movShift c sf rd imm5 ty rm => Sys2Proof.Machine.execMovShift c sf rd imm5 ty rm s
  | .movReg c sf rd rs ty rm => Sys2Proof.Machine.execMovReg c sf rd rs ty rm s
  | .movImm c sf rd rot imm8 => Sys2Proof.Machine.execMovImm c sf rd rot imm8 s
  | .bicShift c sf rn rd imm5 ty rm => Sys2Proof.Machine.execBicShift c sf rn rd imm5 ty rm s
  | .bicReg c sf rn rd rs ty rm => Sys2Proof.Machine.execBicReg c sf rn rd rs ty rm s
  | .bicImm c sf rn rd rot imm8 => Sys2Proof.Machine.execBicImm c sf rn rd rot imm8 s
  | .mvnShift c sf rd imm5 ty rm => Sys2Proof.Machine.execMvnShift c sf rd imm5 ty rm s
  | .mvnReg c sf rd rs ty rm => Sys2Proof.Machine.execMvnReg c sf rd rs ty rm s
  | .mvnImm c sf rd rot imm8 => Sys2Proof.Machine.execMvnImm c sf rd rot imm8 s
  -- multiply (43_multiply.md)
  | .mul c sf rd rs rm => Sys2Proof.Machine.execMul c sf rd rs rm s
  | .mla c sf rd rn rs rm => Sys2Proof.Machine.execMla c sf rd rn rs rm s
  | .umaal c rdHi rdLo rs rm => Sys2Proof.Machine.execUmaal c rdHi rdLo rs rm s
  | .umull c sf rdHi rdLo rs rm => Sys2Proof.Machine.execUmull c sf rdHi rdLo rs rm s
  | .umlal c sf rdHi rdLo rs rm => Sys2Proof.Machine.execUmlal c sf rdHi rdLo rs rm s
  | .smull c sf rdHi rdLo rs rm => Sys2Proof.Machine.execSmull c sf rdHi rdLo rs rm s
  | .smlal c sf rdHi rdLo rs rm => Sys2Proof.Machine.execSmlal c sf rdHi rdLo rs rm s
  | .smlaXY c rd rn rs y x rm => Sys2Proof.Machine.execSmlaXY c rd rn rs y x rm s
  | .smlawY c rd rn rs y rm => Sys2Proof.Machine.execSmlawY c rd rn rs y rm s
  | .smulwY c rd rs y rm => Sys2Proof.Machine.execSmulwY c rd rs y rm s
  | .smlalXY c rdHi rdLo rs y x rm => Sys2Proof.Machine.execSmlalXY c rdHi rdLo rs y x rm s
  | .smulXY c rd rs y x rm => Sys2Proof.Machine.execSmulXY c rd rs y x rm s
  | .smuad c rd rs x rm => Sys2Proof.Machine.execSmuad c rd rs x rm s
  | .smusd c rd rs x rm => Sys2Proof.Machine.execSmusd c rd rs x rm s
  | .smlad c rd rn rs x rm => Sys2Proof.Machine.execSmlad c rd rn rs x rm s
  | .smlsd c rd rn rs x rm => Sys2Proof.Machine.execSmlsd c rd rn rs x rm s
  | .smlald c rdHi rdLo rs x rm => Sys2Proof.Machine.execSmlald c rdHi rdLo rs x rm s
  | .smlsld c rdHi rdLo rs x rm => Sys2Proof.Machine.execSmlsld c rdHi rdLo rs x rm s
  | .smmul c rd rs r rm => Sys2Proof.Machine.execSmmul c rd rs r rm s
  | .smmla c rd rn rs r rm => Sys2Proof.Machine.execSmmla c rd rn rs r rm s
  | .smmls c rd rn rs r rm => Sys2Proof.Machine.execSmmls c rd rn rs r rm s
  -- parallel addition and subtraction (44_parallel_add_sub.md)
  | .sadd16 c rn rd rm => Sys2Proof.Machine.execSadd16 c rn rd rm s
  | .saddsubx c rn rd rm => Sys2Proof.Machine.execSaddsubx c rn rd rm s
  | .ssubaddx c rn rd rm => Sys2Proof.Machine.execSsubaddx c rn rd rm s
  | .ssub16 c rn rd rm => Sys2Proof.Machine.execSsub16 c rn rd rm s
  | .sadd8 c rn rd rm => Sys2Proof.Machine.execSadd8 c rn rd rm s
  | .ssub8 c rn rd rm => Sys2Proof.Machine.execSsub8 c rn rd rm s
  | .qadd16 c rn rd rm => Sys2Proof.Machine.execQadd16 c rn rd rm s
  | .qaddsubx c rn rd rm => Sys2Proof.Machine.execQaddsubx c rn rd rm s
  | .qsubaddx c rn rd rm => Sys2Proof.Machine.execQsubaddx c rn rd rm s
  | .qsub16 c rn rd rm => Sys2Proof.Machine.execQsub16 c rn rd rm s
  | .qadd8 c rn rd rm => Sys2Proof.Machine.execQadd8 c rn rd rm s
  | .qsub8 c rn rd rm => Sys2Proof.Machine.execQsub8 c rn rd rm s
  | .shadd16 c rn rd rm => Sys2Proof.Machine.execShadd16 c rn rd rm s
  | .shaddsubx c rn rd rm => Sys2Proof.Machine.execShaddsubx c rn rd rm s
  | .shsubaddx c rn rd rm => Sys2Proof.Machine.execShsubaddx c rn rd rm s
  | .shsub16 c rn rd rm => Sys2Proof.Machine.execShsub16 c rn rd rm s
  | .shadd8 c rn rd rm => Sys2Proof.Machine.execShadd8 c rn rd rm s
  | .shsub8 c rn rd rm => Sys2Proof.Machine.execShsub8 c rn rd rm s
  | .uadd16 c rn rd rm => Sys2Proof.Machine.execUadd16 c rn rd rm s
  | .uaddsubx c rn rd rm => Sys2Proof.Machine.execUaddsubx c rn rd rm s
  | .usubaddx c rn rd rm => Sys2Proof.Machine.execUsubaddx c rn rd rm s
  | .usub16 c rn rd rm => Sys2Proof.Machine.execUsub16 c rn rd rm s
  | .uadd8 c rn rd rm => Sys2Proof.Machine.execUadd8 c rn rd rm s
  | .usub8 c rn rd rm => Sys2Proof.Machine.execUsub8 c rn rd rm s
  | .uqadd16 c rn rd rm => Sys2Proof.Machine.execUqadd16 c rn rd rm s
  | .uqaddsubx c rn rd rm => Sys2Proof.Machine.execUqaddsubx c rn rd rm s
  | .uqsubaddx c rn rd rm => Sys2Proof.Machine.execUqsubaddx c rn rd rm s
  | .uqsub16 c rn rd rm => Sys2Proof.Machine.execUqsub16 c rn rd rm s
  | .uqadd8 c rn rd rm => Sys2Proof.Machine.execUqadd8 c rn rd rm s
  | .uqsub8 c rn rd rm => Sys2Proof.Machine.execUqsub8 c rn rd rm s
  | .uhadd16 c rn rd rm => Sys2Proof.Machine.execUhadd16 c rn rd rm s
  | .uhaddsubx c rn rd rm => Sys2Proof.Machine.execUhaddsubx c rn rd rm s
  | .uhsubaddx c rn rd rm => Sys2Proof.Machine.execUhsubaddx c rn rd rm s
  | .uhsub16 c rn rd rm => Sys2Proof.Machine.execUhsub16 c rn rd rm s
  | .uhadd8 c rn rd rm => Sys2Proof.Machine.execUhadd8 c rn rd rm s
  | .uhsub8 c rn rd rm => Sys2Proof.Machine.execUhsub8 c rn rd rm s
  -- extend and miscellaneous (45_extend_misc.md)
  | .sxtab16 c rn rd rot rm => Sys2Proof.Machine.execSxtab16 c rn rd rot rm s
  | .sxtb16 c rd rot rm => Sys2Proof.Machine.execSxtb16 c rd rot rm s
  | .sxtab c rn rd rot rm => Sys2Proof.Machine.execSxtab c rn rd rot rm s
  | .sxtb c rd rot rm => Sys2Proof.Machine.execSxtb c rd rot rm s
  | .sxtah c rn rd rot rm => Sys2Proof.Machine.execSxtah c rn rd rot rm s
  | .sxth c rd rot rm => Sys2Proof.Machine.execSxth c rd rot rm s
  | .uxtab16 c rn rd rot rm => Sys2Proof.Machine.execUxtab16 c rn rd rot rm s
  | .uxtb16 c rd rot rm => Sys2Proof.Machine.execUxtb16 c rd rot rm s
  | .uxtab c rn rd rot rm => Sys2Proof.Machine.execUxtab c rn rd rot rm s
  | .uxtb c rd rot rm => Sys2Proof.Machine.execUxtb c rd rot rm s
  | .uxtah c rn rd rot rm => Sys2Proof.Machine.execUxtah c rn rd rot rm s
  | .uxth c rd rot rm => Sys2Proof.Machine.execUxth c rd rot rm s
  | .clz c rd rm => Sys2Proof.Machine.execClz c rd rm s
  | .usad8 c rd rs rm => Sys2Proof.Machine.execUsad8 c rd rs rm s
  | .usada8 c rd rn rs rm => Sys2Proof.Machine.execUsada8 c rd rn rs rm s
  | .pkhbt c rn rd imm5 rm => Sys2Proof.Machine.execPkhbt c rn rd imm5 rm s
  | .pkhtb c rn rd imm5 rm => Sys2Proof.Machine.execPkhtb c rn rd imm5 rm s
  | .rev c rd rm => Sys2Proof.Machine.execRev c rd rm s
  | .rev16 c rd rm => Sys2Proof.Machine.execRev16 c rd rm s
  | .revsh c rd rm => Sys2Proof.Machine.execRevsh c rd rm s
  | .sel c rn rd rm => Sys2Proof.Machine.execSel c rn rd rm s
  | .ssat c sat rd imm5 sh rm => Sys2Proof.Machine.execSsat c sat rd imm5 sh rm s
  | .ssat16 c sat rd rm => Sys2Proof.Machine.execSsat16 c sat rd rm s
  | .usat c sat rd imm5 sh rm => Sys2Proof.Machine.execUsat c sat rd imm5 sh rm s
  | .usat16 c sat rd rm => Sys2Proof.Machine.execUsat16 c sat rd rm s
  | .qadd c rn rd rm => Sys2Proof.Machine.execQadd c rn rd rm s
  | .qsub c rn rd rm => Sys2Proof.Machine.execQsub c rn rd rm s
  | .qdadd c rn rd rm => Sys2Proof.Machine.execQdadd c rn rd rm s
  | .qdsub c rn rd rm => Sys2Proof.Machine.execQdsub c rn rd rm s
  -- status register access (46_status_register.md)
  | .mrs c r rd => Sys2Proof.Machine.execMrs c r rd s
  | .msrImm c r mask rot imm8 => Sys2Proof.Machine.execMsrImm c r mask rot imm8 s
  | .msrReg c r mask rm => Sys2Proof.Machine.execMsrReg c r mask rm s
  | .cps imod mmod am im fm mode => Sys2Proof.Machine.execCps imod mmod am im fm mode s
  | .setend e => Sys2Proof.Machine.execSetend e s
  -- branch (41_branch.md)
  | .b c imm24 => Sys2Proof.Machine.execB c imm24 s
  | .bl c imm24 => Sys2Proof.Machine.execBl c imm24 s
  | .blx1 h imm24 => Sys2Proof.Machine.execBlx1 h imm24 s
  | .blx2 c rm => Sys2Proof.Machine.execBlx2 c rm s
  | .bx c rm => Sys2Proof.Machine.execBx c rm s
  | .bxj c rm => Sys2Proof.Machine.execBxj c rm s
  -- load and store (47_load_store.md)
  | .ldrImm c im u rn rd imm12 => Sys2Proof.Machine.execLdrImm c im u rn rd imm12 s
  | .ldrReg c im u rn rd imm5 ty rm => Sys2Proof.Machine.execLdrReg c im u rn rd imm5 ty rm s
  | .ldrbImm c im u rn rd imm12 => Sys2Proof.Machine.execLdrbImm c im u rn rd imm12 s
  | .ldrbReg c im u rn rd imm5 ty rm => Sys2Proof.Machine.execLdrbReg c im u rn rd imm5 ty rm s
  | .strImm c im u rn rd imm12 => Sys2Proof.Machine.execStrImm c im u rn rd imm12 s
  | .strReg c im u rn rd imm5 ty rm => Sys2Proof.Machine.execStrReg c im u rn rd imm5 ty rm s
  | .strbImm c im u rn rd imm12 => Sys2Proof.Machine.execStrbImm c im u rn rd imm12 s
  | .strbReg c im u rn rd imm5 ty rm => Sys2Proof.Machine.execStrbReg c im u rn rd imm5 ty rm s
  | .ldrtImm c u rn rd imm12 => Sys2Proof.Machine.execLdrtImm c u rn rd imm12 s
  | .ldrtReg c u rn rd imm5 ty rm => Sys2Proof.Machine.execLdrtReg c u rn rd imm5 ty rm s
  | .ldrbtImm c u rn rd imm12 => Sys2Proof.Machine.execLdrbtImm c u rn rd imm12 s
  | .ldrbtReg c u rn rd imm5 ty rm => Sys2Proof.Machine.execLdrbtReg c u rn rd imm5 ty rm s
  | .strtImm c u rn rd imm12 => Sys2Proof.Machine.execStrtImm c u rn rd imm12 s
  | .strtReg c u rn rd imm5 ty rm => Sys2Proof.Machine.execStrtReg c u rn rd imm5 ty rm s
  | .strbtImm c u rn rd imm12 => Sys2Proof.Machine.execStrbtImm c u rn rd imm12 s
  | .strbtReg c u rn rd imm5 ty rm => Sys2Proof.Machine.execStrbtReg c u rn rd imm5 ty rm s
  | .strhImm c im u rn rd imm8 => Sys2Proof.Machine.execStrhImm c im u rn rd imm8 s
  | .strhReg c im u rn rd rm => Sys2Proof.Machine.execStrhReg c im u rn rd rm s
  | .ldrdImm c im u rn rd imm8 => Sys2Proof.Machine.execLdrdImm c im u rn rd imm8 s
  | .ldrdReg c im u rn rd rm => Sys2Proof.Machine.execLdrdReg c im u rn rd rm s
  | .strdImm c im u rn rd imm8 => Sys2Proof.Machine.execStrdImm c im u rn rd imm8 s
  | .strdReg c im u rn rd rm => Sys2Proof.Machine.execStrdReg c im u rn rd rm s
  | .ldrhImm c im u rn rd imm8 => Sys2Proof.Machine.execLdrhImm c im u rn rd imm8 s
  | .ldrhReg c im u rn rd rm => Sys2Proof.Machine.execLdrhReg c im u rn rd rm s
  | .ldrsbImm c im u rn rd imm8 => Sys2Proof.Machine.execLdrsbImm c im u rn rd imm8 s
  | .ldrsbReg c im u rn rd rm => Sys2Proof.Machine.execLdrsbReg c im u rn rd rm s
  | .ldrshImm c im u rn rd imm8 => Sys2Proof.Machine.execLdrshImm c im u rn rd imm8 s
  | .ldrshReg c im u rn rd rm => Sys2Proof.Machine.execLdrshReg c im u rn rd rm s
  | .ldrex c rn rd => Sys2Proof.Machine.execLdrex c rn rd s
  | .strex c rn rd rm => Sys2Proof.Machine.execStrex c rn rd rm s
  | .pldImm u rn imm12 => Sys2Proof.Machine.execPldImm u rn imm12 s
  | .pldReg u rn imm5 ty rm => Sys2Proof.Machine.execPldReg u rn imm5 ty rm s
  -- load and store multiple, return state, semaphores (48_load_store_multiple_semaphore.md)
  | .ldm1 c am w rn list => Sys2Proof.Machine.execLdm1 c am w rn list s
  | .ldm2 c am rn list => Sys2Proof.Machine.execLdm2 c am rn list s
  | .ldm3 c am w rn list => Sys2Proof.Machine.execLdm3 c am w rn list s
  | .stm1 c am w rn list => Sys2Proof.Machine.execStm1 c am w rn list s
  | .stm2 c am rn list => Sys2Proof.Machine.execStm2 c am rn list s
  | .rfe am w rn => Sys2Proof.Machine.execRfe am w rn s
  | .srs am w mode => Sys2Proof.Machine.execSrs am w mode s
  | .swp c rn rd rm => Sys2Proof.Machine.execSwp c rn rd rm s
  | .swpb c rn rd rm => Sys2Proof.Machine.execSwpb c rn rd rm s
  -- exception generating (49_exception_coprocessor.md)
  | .swi c imm24 => Sys2Proof.Machine.execSwi c imm24 s
  | .bkpt c imm16 => Sys2Proof.Machine.execBkpt c imm16 s
  | .undef c imm16 => Sys2Proof.Machine.execUndef c imm16 s
  -- coprocessor (49_exception_coprocessor.md)
  | .cdp c opc1 crn crd cp opc2 crm => Sys2Proof.Machine.execCdp c opc1 crn crd cp opc2 crm s
  | .ldc c p u n w rn crd cp imm8 => Sys2Proof.Machine.execLdc c p u n w rn crd cp imm8 s
  | .stc c p u n w rn crd cp imm8 => Sys2Proof.Machine.execStc c p u n w rn crd cp imm8 s
  | .mcr c opc1 crn rd cp opc2 crm => Sys2Proof.Machine.execMcr c opc1 crn rd cp opc2 crm s
  | .mrc c opc1 crn rd cp opc2 crm => Sys2Proof.Machine.execMrc c opc1 crn rd cp opc2 crm s
  | .mcrr c rn rd cp opc crm => Sys2Proof.Machine.execMcrr c rn rd cp opc crm s
  | .mrrc c rn rd cp opc crm => Sys2Proof.Machine.execMrrc c rn rd cp opc crm s
  | .cdp2 opc1 crn crd cp opc2 crm => Sys2Proof.Machine.execCdp2 opc1 crn crd cp opc2 crm s
  | .ldc2 p u n w rn crd cp imm8 => Sys2Proof.Machine.execLdc2 p u n w rn crd cp imm8 s
  | .stc2 p u n w rn crd cp imm8 => Sys2Proof.Machine.execStc2 p u n w rn crd cp imm8 s
  | .mcr2 opc1 crn rd cp opc2 crm => Sys2Proof.Machine.execMcr2 opc1 crn rd cp opc2 crm s
  | .mrc2 opc1 crn rd cp opc2 crm => Sys2Proof.Machine.execMrc2 opc1 crn rd cp opc2 crm s
  | .mcrr2 rn rd cp opc crm => Sys2Proof.Machine.execMcrr2 rn rd cp opc crm s
  | .mrrc2 rn rd cp opc crm => Sys2Proof.Machine.execMrrc2 rn rd cp opc crm s

end Sys2Proof.Machine
end

