-- ==== Sys2Proof/Machine/Step.lean ====
section
/-! DEFINITION. One step of the processor (40_condition_execution.md R166), and the placing of an instruction where a step
fetches. -/
namespace Sys2Proof.Machine

/-- Steps 4 to 7 of R166 for a fetched word. -/
def execWord (w : Word) (s : State) : Out :=
  match decodeWord w with
  | .instr i => exec i s
  | .undefined => whenWordCond w s (raise .undefinedInstruction s)
  | .unpredictable => whenWordCond w s (.fault .unpredictableEncoding)

/-- Steps 2 to 7 of R166: fetch and execute. -/
def fetchAndExecute (s : State) : Out :=
  if s.t then .refused .thumbState
  else if s.j then .refused .jazelleState
  else
    match s.fetch with
    | .word w => execWord w s
    | .abort => raise .prefetchAbort s
    | .written => .refused .fetchWritten
    | .unwritten => .fault .unwrittenMemory

/-- One step (R166): an interrupt that is asserted and not masked is taken before the fetch and ends the step. The levels
of the lines are those of this step, consumed by it. -/
def step (s : State) : Host.Outcome State Fault Refusal :=
  match s.interrupt with
  | some k => raise k s.tick
  | none => fetchAndExecute s.tick

/-- The state with the instruction whose bits are `w` stored where `step` fetches its next instruction: the four bytes at
the PC, in instruction byte order, as a loader outside the machine puts them (so they do not count as written by the
program, 20_memory.md R89). Nothing else is changed (notes/assumptions/6.md). -/
def State.withFetchWord (s : State) (nbits w : Nat) : State :=
  { s with
    mem := s.mem.writeBytes s.pc.toNat (littleOfWord (BitVec.ofNat 32 (w % 2 ^ nbits)) 4)
    written := s.written.filter (fun a => decide (a < s.pc.toNat) || decide (s.pc.toNat + 4 ≤ a)) }

end Sys2Proof.Machine
end

