-- ==== Sys2Proof/Safety.lean ====
section
/-! DEFINITION. The terms statements about the machine are written in: the invariant of a legal state, when an access
succeeds, what an instruction may change, and the forms of the instructions that share a shape. -/
namespace Sys2Proof.Machine

/-! ### Legal states -/

/-- The reserved bits of a status register are 0 (10_state.md R50). -/
def reservedZero (psr : Word) : Bool := psr &&& unallocMask == 0

/-- The mode bits are those of one of the seven modes (R33). -/
def legalMode (psr : Word) : Bool := (modeOfNumber (modeBits psr)).isSome

/-- What every step keeps: memory and the list of written addresses in canonical form (20_memory.md R70, R71, R89), the
reserved bits of every status register 0 (10_state.md R50), a legal mode (R33), and the PC aligned for the instruction set
state (R39, R40). -/
structure State.Inv (s : State) : Prop where
  mem : s.mem.wf = true
  written : risingFrom 0 s.written = true
  inSpace : ∀ a ∈ s.written, a < 2 ^ 32
  cpsr : reservedZero s.cpsr = true
  spsr : ∀ k : Fin 5, reservedZero (s.spsr.get k) = true
  mode : legalMode s.cpsr = true
  pc : alignFor s.cpsr s.pc = s.pc

/-! ### When things can be done -/

/-- The instruction's condition passes and another instruction can follow it in memory
(40_condition_execution.md R161, R162; 10_state.md R39). -/
def Runs (c : Cond) (s : State) : Prop := conditionPassed c s = true ∧ s.pc.toNat + 4 < 2 ^ 32

/-- An access that the memory system lets through, whose address is a multiple of its size and which does not cross the
top of the address space (20_memory.md R77, R83, R84). -/
def State.reachable (s : State) (v : Privilege) (k : AccessKind) (n : Nat) (a : Word) : Prop :=
  a.toNat + n ≤ 2 ^ 32 ∧ a.toNat % n = 0 ∧ memPermitted s.platform a.toNat n k v = true ∧
    memAborts s.platform a.toNat n k = false

/-- A read of `n` bytes that gives the value `w` (20_memory.md R74): reachable, every byte with a value. -/
def State.readable (s : State) (v : Privilege) (n : Nat) (a w : Word) : Prop :=
  s.reachable v .read n a ∧ (s.mem.readBytes a.toNat n).map (assemble s.e) = some w

/-- A write of `n` bytes that is done. -/
def State.writable (s : State) (v : Privilege) (n : Nat) (a : Word) : Prop := s.reachable v .write n a

/-- Word reads at rising addresses that give these values, without crossing the top of the address space
(20_memory.md R83, R91). -/
def State.readableBlock (s : State) (a : Word) (ws : List Word) : Prop :=
  a.toNat + 4 * ws.length ≤ 2 ^ 32 ∧
  ∀ j (h : j < ws.length), s.readable s.privilege 4 (a + BitVec.ofNat 32 (4 * j)) ws[j]

/-- Word writes at rising addresses that are all done, without crossing the top (R83, R91). -/
def State.writableBlock (s : State) (a : Word) (k : Nat) : Prop :=
  a.toNat + 4 * k ≤ 2 ^ 32 ∧ ∀ j < k, s.writable s.privilege 4 (a + BitVec.ofNat 32 (4 * j))

/-- The memory system lets the fetch at the PC through (20_memory.md R84; 60_exceptions.md R544). -/
def State.fetchAllowed (s : State) : Prop :=
  memPermitted s.platform s.pc.toNat 4 .fetch s.privilege = true ∧ memAborts s.platform s.pc.toNat 4 .fetch = false

/-- The fetch at the PC gives `w`: it is let through, none of the four bytes was written by the program (20_memory.md R89),
and byte `k` of `w` is at PC + k (R75). -/
def State.fetches (s : State) (w : Word) : Prop :=
  s.fetchAllowed ∧ ∀ k < 4, s.pc.toNat + k ∉ s.written ∧ s.mem.read (s.pc.toNat + k) = some (w.extractLsb' (8 * k) 8)

/-- Of `n` word accesses from `a` up, which do not cross the top of the address space, number `d` is the first that the
memory system does not let through or whose address is misaligned (R77, R84, R91); reads before it give values. -/
def State.abortsAt (s : State) (k : AccessKind) (a : Word) (n d : Nat) : Prop :=
  a.toNat + 4 * n ≤ 2 ^ 32 ∧ d < n ∧ ¬s.reachable s.privilege k 4 (a + BitVec.ofNat 32 (4 * d)) ∧
  ∀ j < d, s.reachable s.privilege k 4 (a + BitVec.ofNat 32 (4 * j)) ∧
    (k = .read → ∃ w, s.readable s.privilege 4 (a + BitVec.ofNat 32 (4 * j)) w)

/-! ### States after an instruction -/

/-- `rd` holds `v`, the status register is `psr`, the next instruction follows; nothing else differs. -/
def State.after (s : State) (rd : Reg) (v psr : Word) : State :=
  { s with gpr := s.gpr.set (cell s.mode rd) v, cpsr := psr, pc := s.pc + 4 }

/-- The pair `rdHi`, `rdLo` holds `p`, the status register is `psr`, the next instruction follows; nothing else
differs. -/
def State.afterPair (s : State) (rdHi rdLo : Reg) (p : BitVec 64) (psr : Word) : State :=
  { s with
    gpr := (s.gpr.set (cell s.mode rdLo) (p.setWidth 32)).set (cell s.mode rdHi) ((p >>> 32).setWidth 32)
    cpsr := psr
    pc := s.pc + 4 }

/-- The next instruction follows; nothing else differs. -/
def State.afterNothing (s : State) : State := { s with pc := s.pc + 4 }

/-- The registers with the base register written back, where the form does that. -/
def State.based (s : State) (wb : Bool) (rn : Reg) (v : Word) : Vector Word 30 :=
  if wb then s.gpr.set (cell s.mode rn) v else s.gpr

/-- `n` bytes of `w` stored at `a`, and noted as written by the program; nothing else differs. -/
def State.withStored (s : State) (n : Nat) (a w : Word) : State :=
  { s with
    mem := s.mem.writeBytes a.toNat (disassemble s.e n w)
    written := addAddrs s.written a.toNat n }

/-- Words stored at rising addresses from `a` (20_memory.md R91); nothing else differs. -/
def State.withStoredWords (s : State) (a : Word) : List Word → State
  | [] => s
  | w :: ws => (s.withStored 4 a w).withStoredWords (a + 4) ws

/-- A load of several registers of mode `m` that had loaded the registers `loaded` takes the Data Abort: these hold free
values, one each, but for the base register, which keeps its value, as all other registers do; nothing else differs
(60_exceptions.md R549; notes/assumptions/13.md). -/
def LoadAborted (s : State) (m : Mode) (base : Reg) (loaded : List Reg) (o : Out) : Prop :=
  ∃ (g : Vector Word 30) (c : Nat), o = .next (takeException .dataAbort { s with gpr := g, freeCtr := c }) ∧
    (∀ r ∈ loaded, r ≠ 15 → (base ≠ 15 → cell m r ≠ cell s.mode base) →
      ∃ n, s.freeCtr ≤ n ∧ n < c ∧ g.get (cell m r) = Config.freeWord n) ∧
    ∀ k : Fin 30, ((∀ r ∈ loaded, r ≠ 15 → k ≠ cell m r) ∨ (base ≠ 15 ∧ k = cell s.mode base)) →
      g.get k = s.gpr.get k

/-- A store of several words from `a` up that had stored `d` of them takes the Data Abort: these words hold free values and
count as written; nothing else differs (20_memory.md R91; 60_exceptions.md R549; notes/assumptions/13.md). -/
def StoreAborted (s : State) (a : Word) (d : Nat) (o : Out) : Prop :=
  ∃ (mem : Memory) (written : List Nat) (c : Nat),
    o = .next (takeException .dataAbort { s with mem := mem, written := written, freeCtr := c }) ∧
    (∀ x, (x < a.toNat ∨ a.toNat + 4 * d ≤ x) → mem.read x = s.mem.read x ∧ (x ∈ written ↔ x ∈ s.written)) ∧
    (∀ x, a.toNat ≤ x → x < a.toNat + 4 * d → x ∈ written) ∧
    ∀ j < d, ∃ n, s.freeCtr ≤ n ∧ n < c ∧
      (mem.readBytes (a.toNat + 4 * j) 4).map (assemble s.e) = some (Config.freeWord n)

/-- The status register with Q set where `q`, unchanged otherwise (10_state.md R43). -/
def stickyQ (psr : Word) (q : Bool) : Word := if q then psr ||| 0x08000000 else psr

/-- The status register with GE written (10_state.md R44). -/
def withGe (psr : Word) (g : BitVec 4) : Word := (psr &&& 0xFFF0FFFF) ||| (g.setWidth 32 <<< 16)

/-- The status register with N and Z of a 32-bit result (42_data_processing.md R206), C and V as given, where `sf`. -/
def withFlags (psr : Word) (sf : Bool) (result : Word) (c v : Bool) : Word :=
  if sf then withNzcv psr (result.getLsbD 31) (result == 0) c v else psr

/-! ### Forms of the instructions -/

/-- The three second operands of the data-processing instructions (42_data_processing.md R201, R202, R204). -/
inductive Operand2 where
  | shift (imm5 : BitVec 5) (ty : ShiftType) (rm : Reg)
  | reg (rs : Reg) (ty : ShiftType) (rm : Reg)
  | imm (rot : BitVec 4) (imm8 : BitVec 8)
deriving DecidableEq, Repr

/-- The value and the shifter carry-out of a second operand. -/
def Operand2.value (o : Operand2) (s : State) : Shifted :=
  match o with
  | .shift imm5 ty rm => shiftImm s.c (s.reg rm) ty imm5
  | .reg rs ty rm => shiftReg s.c (s.reg rm) ty ((s.reg rs).toNat % 256)
  | .imm rot imm8 => shifterImm s.c rot imm8

/-- With a shift by a register, none of the registers may be R15 (R204); the other two forms restrict nothing. -/
def Operand2.allows (o : Operand2) (regs : List Reg) : Bool :=
  match o with
  | .shift _ _ _ => true
  | .reg rs _ rm => !anyPc (regs ++ [rs, rm])
  | .imm _ _ => true

/-- The instructions of AND to RSC, ORR and BIC, in their three forms; of the others their register fields that do not
exist are ignored. -/
def dpForm (op : DpOp) (o : Operand2) (c : Cond) (s : Bool) (rn rd : Reg) : Instr :=
  match op, o with
  | .and, .shift i t m => .andShift c s rn rd i t m
  | .and, .reg r t m => .andReg c s rn rd r t m
  | .and, .imm r i => .andImm c s rn rd r i
  | .eor, .shift i t m => .eorShift c s rn rd i t m
  | .eor, .reg r t m => .eorReg c s rn rd r t m
  | .eor, .imm r i => .eorImm c s rn rd r i
  | .sub, .shift i t m => .subShift c s rn rd i t m
  | .sub, .reg r t m => .subReg c s rn rd r t m
  | .sub, .imm r i => .subImm c s rn rd r i
  | .rsb, .shift i t m => .rsbShift c s rn rd i t m
  | .rsb, .reg r t m => .rsbReg c s rn rd r t m
  | .rsb, .imm r i => .rsbImm c s rn rd r i
  | .add, .shift i t m => .addShift c s rn rd i t m
  | .add, .reg r t m => .addReg c s rn rd r t m
  | .add, .imm r i => .addImm c s rn rd r i
  | .adc, .shift i t m => .adcShift c s rn rd i t m
  | .adc, .reg r t m => .adcReg c s rn rd r t m
  | .adc, .imm r i => .adcImm c s rn rd r i
  | .sbc, .shift i t m => .sbcShift c s rn rd i t m
  | .sbc, .reg r t m => .sbcReg c s rn rd r t m
  | .sbc, .imm r i => .sbcImm c s rn rd r i
  | .rsc, .shift i t m => .rscShift c s rn rd i t m
  | .rsc, .reg r t m => .rscReg c s rn rd r t m
  | .rsc, .imm r i => .rscImm c s rn rd r i
  | .tst, .shift i t m => .tstShift c rn i t m
  | .tst, .reg r t m => .tstReg c rn r t m
  | .tst, .imm r i => .tstImm c rn r i
  | .teq, .shift i t m => .teqShift c rn i t m
  | .teq, .reg r t m => .teqReg c rn r t m
  | .teq, .imm r i => .teqImm c rn r i
  | .cmp, .shift i t m => .cmpShift c rn i t m
  | .cmp, .reg r t m => .cmpReg c rn r t m
  | .cmp, .imm r i => .cmpImm c rn r i
  | .cmn, .shift i t m => .cmnShift c rn i t m
  | .cmn, .reg r t m => .cmnReg c rn r t m
  | .cmn, .imm r i => .cmnImm c rn r i
  | .orr, .shift i t m => .orrShift c s rn rd i t m
  | .orr, .reg r t m => .orrReg c s rn rd r t m
  | .orr, .imm r i => .orrImm c s rn rd r i
  | .mov, .shift i t m => .movShift c s rd i t m
  | .mov, .reg r t m => .movReg c s rd r t m
  | .mov, .imm r i => .movImm c s rd r i
  | .bic, .shift i t m => .bicShift c s rn rd i t m
  | .bic, .reg r t m => .bicReg c s rn rd r t m
  | .bic, .imm r i => .bicImm c s rn rd r i
  | .mvn, .shift i t m => .mvnShift c s rd i t m
  | .mvn, .reg r t m => .mvnReg c s rd r t m
  | .mvn, .imm r i => .mvnImm c s rd r i

/-- The 36 parallel additions and subtractions by prefix and operation (44_parallel_add_sub.md R302, R304). -/
def parForm (p : ParPrefix) (op : ParOp) (c : Cond) (rn rd rm : Reg) : Instr :=
  match p, op with
  | .s, .add16 => .sadd16 c rn rd rm
  | .s, .addsubx => .saddsubx c rn rd rm
  | .s, .subaddx => .ssubaddx c rn rd rm
  | .s, .sub16 => .ssub16 c rn rd rm
  | .s, .add8 => .sadd8 c rn rd rm
  | .s, .sub8 => .ssub8 c rn rd rm
  | .q, .add16 => .qadd16 c rn rd rm
  | .q, .addsubx => .qaddsubx c rn rd rm
  | .q, .subaddx => .qsubaddx c rn rd rm
  | .q, .sub16 => .qsub16 c rn rd rm
  | .q, .add8 => .qadd8 c rn rd rm
  | .q, .sub8 => .qsub8 c rn rd rm
  | .sh, .add16 => .shadd16 c rn rd rm
  | .sh, .addsubx => .shaddsubx c rn rd rm
  | .sh, .subaddx => .shsubaddx c rn rd rm
  | .sh, .sub16 => .shsub16 c rn rd rm
  | .sh, .add8 => .shadd8 c rn rd rm
  | .sh, .sub8 => .shsub8 c rn rd rm
  | .u, .add16 => .uadd16 c rn rd rm
  | .u, .addsubx => .uaddsubx c rn rd rm
  | .u, .subaddx => .usubaddx c rn rd rm
  | .u, .sub16 => .usub16 c rn rd rm
  | .u, .add8 => .uadd8 c rn rd rm
  | .u, .sub8 => .usub8 c rn rd rm
  | .uq, .add16 => .uqadd16 c rn rd rm
  | .uq, .addsubx => .uqaddsubx c rn rd rm
  | .uq, .subaddx => .uqsubaddx c rn rd rm
  | .uq, .sub16 => .uqsub16 c rn rd rm
  | .uq, .add8 => .uqadd8 c rn rd rm
  | .uq, .sub8 => .uqsub8 c rn rd rm
  | .uh, .add16 => .uhadd16 c rn rd rm
  | .uh, .addsubx => .uhaddsubx c rn rd rm
  | .uh, .subaddx => .uhsubaddx c rn rd rm
  | .uh, .sub16 => .uhsub16 c rn rd rm
  | .uh, .add8 => .uhadd8 c rn rd rm
  | .uh, .sub8 => .uhsub8 c rn rd rm

/-- The single loads and stores, by what they transfer; the last four with User privilege. -/
inductive Transfer where
  | ldr | ldrb | ldrh | ldrsb | ldrsh | str | strb | strh | ldrt | ldrbt | strt | strbt
deriving DecidableEq, Repr

/-- The offset field of a load or store: an immediate of 12 bits, of which the halfword and signed-byte forms have 8, or a
register, which those forms do not shift (47_load_store.md R422, R423). -/
inductive Offset where
  | imm (v : BitVec 12)
  | reg (imm5 : BitVec 5) (ty : ShiftType) (rm : Reg)
deriving DecidableEq, Repr

/-- The halfword and signed-byte transfers, whose offset has the narrow form. -/
def Transfer.narrow : Transfer → Bool
  | .ldrh => true | .ldrsb => true | .ldrsh => true | .strh => true
  | .ldr => false | .ldrb => false | .str => false | .strb => false
  | .ldrt => false | .ldrbt => false | .strt => false | .strbt => false

/-- The transfers with User privilege, which are post-indexed (R433, R439, R442, R445). -/
def Transfer.user : Transfer → Bool
  | .ldrt => true | .ldrbt => true | .strt => true | .strbt => true
  | .ldr => false | .ldrb => false | .ldrh => false | .ldrsb => false | .ldrsh => false
  | .str => false | .strb => false | .strh => false

/-- The transfer stores. -/
def Transfer.stores : Transfer → Bool
  | .str => true | .strb => true | .strh => true | .strt => true | .strbt => true
  | .ldr => false | .ldrb => false | .ldrh => false | .ldrsb => false | .ldrsh => false | .ldrt => false | .ldrbt => false

/-- The width of the access in bytes. -/
def Transfer.bytes : Transfer → Nat
  | .ldr => 4 | .str => 4 | .ldrt => 4 | .strt => 4
  | .ldrb => 1 | .strb => 1 | .ldrbt => 1 | .strbt => 1 | .ldrsb => 1
  | .ldrh => 2 | .ldrsh => 2 | .strh => 2

/-- The index mode a transfer is made with. -/
def Transfer.index (k : Transfer) (im : IndexMode) : IndexMode := if k.user then .post else im

/-- The privilege an access is made with (20_memory.md R84). -/
def Transfer.priv (k : Transfer) (s : State) : Privilege := if k.user then .user else s.privilege

/-- The value of the offset (R422, R423). -/
def Transfer.offset (k : Transfer) (o : Offset) (s : State) : Word :=
  match o with
  | .imm v => if k.narrow then (v.setWidth 8).setWidth 32 else v.setWidth 32
  | .reg imm5 ty rm => if k.narrow then s.reg rm else (shiftImm s.c (s.reg rm) ty imm5).value

/-- The value a load puts in its register, of the bytes read (R431, R432, R436, R437, R438). -/
def Transfer.extend (k : Transfer) (w : Word) : Word :=
  match k with
  | .ldrsb => (w.setWidth 8).signExtend 32
  | .ldrsh => (w.setWidth 16).signExtend 32
  | .ldr => w | .ldrb => w | .ldrh => w | .ldrt => w | .ldrbt => w
  | .str => w | .strb => w | .strh => w | .strt => w | .strbt => w

/-- The instruction of a transfer. -/
def Transfer.form (k : Transfer) (o : Offset) (c : Cond) (im : IndexMode) (u : Bool) (rn rd : Reg) : Instr :=
  match k, o with
  | .ldr, .imm v => .ldrImm c im u rn rd v
  | .ldr, .reg i t m => .ldrReg c im u rn rd i t m
  | .ldrb, .imm v => .ldrbImm c im u rn rd v
  | .ldrb, .reg i t m => .ldrbReg c im u rn rd i t m
  | .ldrh, .imm v => .ldrhImm c im u rn rd (v.setWidth 8)
  | .ldrh, .reg _ _ m => .ldrhReg c im u rn rd m
  | .ldrsb, .imm v => .ldrsbImm c im u rn rd (v.setWidth 8)
  | .ldrsb, .reg _ _ m => .ldrsbReg c im u rn rd m
  | .ldrsh, .imm v => .ldrshImm c im u rn rd (v.setWidth 8)
  | .ldrsh, .reg _ _ m => .ldrshReg c im u rn rd m
  | .str, .imm v => .strImm c im u rn rd v
  | .str, .reg i t m => .strReg c im u rn rd i t m
  | .strb, .imm v => .strbImm c im u rn rd v
  | .strb, .reg i t m => .strbReg c im u rn rd i t m
  | .strh, .imm v => .strhImm c im u rn rd (v.setWidth 8)
  | .strh, .reg _ _ m => .strhReg c im u rn rd m
  | .ldrt, .imm v => .ldrtImm c u rn rd v
  | .ldrt, .reg i t m => .ldrtReg c u rn rd i t m
  | .ldrbt, .imm v => .ldrbtImm c u rn rd v
  | .ldrbt, .reg i t m => .ldrbtReg c u rn rd i t m
  | .strt, .imm v => .strtImm c u rn rd v
  | .strt, .reg i t m => .strtReg c u rn rd i t m
  | .strbt, .imm v => .strbtImm c u rn rd v
  | .strbt, .reg i t m => .strbtReg c u rn rd i t m

/-- The registers a transfer may use (R425, R426): Rm and a written-back Rn are not R15, a written-back Rn is not Rd, and
Rd is R15 for LDR and STR only. -/
def Transfer.allows (k : Transfer) (o : Offset) (im : IndexMode) (rn rd : Reg) : Bool :=
  (match o with
    | .imm _ => true
    | .reg _ _ rm => rm != 15) &&
  (!writesBack (k.index im) || (rn != 15 && rn != rd)) && (k == .ldr || k == .str || rd != 15)

/-- The address of a transfer (R421, R424). -/
def Transfer.address (k : Transfer) (o : Offset) (im : IndexMode) (u : Bool) (rn : Reg) (s : State) : Word :=
  accessAddress (k.index im) (s.reg rn) (k.offset o s) u

/-- The value written back to the base register (R424). -/
def Transfer.base (k : Transfer) (o : Offset) (u : Bool) (rn : Reg) (s : State) : Word :=
  if u then s.reg rn + k.offset o s else s.reg rn - k.offset o s

/-! ### What an instruction may change -/

/-- The condition of an instruction that has one (40_condition_execution.md R160, R163). -/
def condOf : Instr → Option Cond
  | .andShift c _ _ _ _ _ _ => some c
  | .andReg c _ _ _ _ _ _ => some c
  | .andImm c _ _ _ _ _ => some c
  | .eorShift c _ _ _ _ _ _ => some c
  | .eorReg c _ _ _ _ _ _ => some c
  | .eorImm c _ _ _ _ _ => some c
  | .subShift c _ _ _ _ _ _ => some c
  | .subReg c _ _ _ _ _ _ => some c
  | .subImm c _ _ _ _ _ => some c
  | .rsbShift c _ _ _ _ _ _ => some c
  | .rsbReg c _ _ _ _ _ _ => some c
  | .rsbImm c _ _ _ _ _ => some c
  | .addShift c _ _ _ _ _ _ => some c
  | .addReg c _ _ _ _ _ _ => some c
  | .addImm c _ _ _ _ _ => some c
  | .adcShift c _ _ _ _ _ _ => some c
  | .adcReg c _ _ _ _ _ _ => some c
  | .adcImm c _ _ _ _ _ => some c
  | .sbcShift c _ _ _ _ _ _ => some c
  | .sbcReg c _ _ _ _ _ _ => some c
  | .sbcImm c _ _ _ _ _ => some c
  | .rscShift c _ _ _ _ _ _ => some c
  | .rscReg c _ _ _ _ _ _ => some c
  | .rscImm c _ _ _ _ _ => some c
  | .tstShift c _ _ _ _ => some c
  | .tstReg c _ _ _ _ => some c
  | .tstImm c _ _ _ => some c
  | .teqShift c _ _ _ _ => some c
  | .teqReg c _ _ _ _ => some c
  | .teqImm c _ _ _ => some c
  | .cmpShift c _ _ _ _ => some c
  | .cmpReg c _ _ _ _ => some c
  | .cmpImm c _ _ _ => some c
  | .cmnShift c _ _ _ _ => some c
  | .cmnReg c _ _ _ _ => some c
  | .cmnImm c _ _ _ => some c
  | .orrShift c _ _ _ _ _ _ => some c
  | .orrReg c _ _ _ _ _ _ => some c
  | .orrImm c _ _ _ _ _ => some c
  | .movShift c _ _ _ _ _ => some c
  | .movReg c _ _ _ _ _ => some c
  | .movImm c _ _ _ _ => some c
  | .bicShift c _ _ _ _ _ _ => some c
  | .bicReg c _ _ _ _ _ _ => some c
  | .bicImm c _ _ _ _ _ => some c
  | .mvnShift c _ _ _ _ _ => some c
  | .mvnReg c _ _ _ _ _ => some c
  | .mvnImm c _ _ _ _ => some c
  | .mul c _ _ _ _ => some c
  | .mla c _ _ _ _ _ => some c
  | .umaal c _ _ _ _ => some c
  | .umull c _ _ _ _ _ => some c
  | .umlal c _ _ _ _ _ => some c
  | .smull c _ _ _ _ _ => some c
  | .smlal c _ _ _ _ _ => some c
  | .smlaXY c _ _ _ _ _ _ => some c
  | .smlawY c _ _ _ _ _ => some c
  | .smulwY c _ _ _ _ => some c
  | .smlalXY c _ _ _ _ _ _ => some c
  | .smulXY c _ _ _ _ _ => some c
  | .smuad c _ _ _ _ => some c
  | .smusd c _ _ _ _ => some c
  | .smlad c _ _ _ _ _ => some c
  | .smlsd c _ _ _ _ _ => some c
  | .smlald c _ _ _ _ _ => some c
  | .smlsld c _ _ _ _ _ => some c
  | .smmul c _ _ _ _ => some c
  | .smmla c _ _ _ _ _ => some c
  | .smmls c _ _ _ _ _ => some c
  | .sadd16 c _ _ _ => some c
  | .saddsubx c _ _ _ => some c
  | .ssubaddx c _ _ _ => some c
  | .ssub16 c _ _ _ => some c
  | .sadd8 c _ _ _ => some c
  | .ssub8 c _ _ _ => some c
  | .qadd16 c _ _ _ => some c
  | .qaddsubx c _ _ _ => some c
  | .qsubaddx c _ _ _ => some c
  | .qsub16 c _ _ _ => some c
  | .qadd8 c _ _ _ => some c
  | .qsub8 c _ _ _ => some c
  | .shadd16 c _ _ _ => some c
  | .shaddsubx c _ _ _ => some c
  | .shsubaddx c _ _ _ => some c
  | .shsub16 c _ _ _ => some c
  | .shadd8 c _ _ _ => some c
  | .shsub8 c _ _ _ => some c
  | .uadd16 c _ _ _ => some c
  | .uaddsubx c _ _ _ => some c
  | .usubaddx c _ _ _ => some c
  | .usub16 c _ _ _ => some c
  | .uadd8 c _ _ _ => some c
  | .usub8 c _ _ _ => some c
  | .uqadd16 c _ _ _ => some c
  | .uqaddsubx c _ _ _ => some c
  | .uqsubaddx c _ _ _ => some c
  | .uqsub16 c _ _ _ => some c
  | .uqadd8 c _ _ _ => some c
  | .uqsub8 c _ _ _ => some c
  | .uhadd16 c _ _ _ => some c
  | .uhaddsubx c _ _ _ => some c
  | .uhsubaddx c _ _ _ => some c
  | .uhsub16 c _ _ _ => some c
  | .uhadd8 c _ _ _ => some c
  | .uhsub8 c _ _ _ => some c
  | .sxtab16 c _ _ _ _ => some c
  | .sxtb16 c _ _ _ => some c
  | .sxtab c _ _ _ _ => some c
  | .sxtb c _ _ _ => some c
  | .sxtah c _ _ _ _ => some c
  | .sxth c _ _ _ => some c
  | .uxtab16 c _ _ _ _ => some c
  | .uxtb16 c _ _ _ => some c
  | .uxtab c _ _ _ _ => some c
  | .uxtb c _ _ _ => some c
  | .uxtah c _ _ _ _ => some c
  | .uxth c _ _ _ => some c
  | .clz c _ _ => some c
  | .usad8 c _ _ _ => some c
  | .usada8 c _ _ _ _ => some c
  | .pkhbt c _ _ _ _ => some c
  | .pkhtb c _ _ _ _ => some c
  | .rev c _ _ => some c
  | .rev16 c _ _ => some c
  | .revsh c _ _ => some c
  | .sel c _ _ _ => some c
  | .ssat c _ _ _ _ _ => some c
  | .ssat16 c _ _ _ => some c
  | .usat c _ _ _ _ _ => some c
  | .usat16 c _ _ _ => some c
  | .qadd c _ _ _ => some c
  | .qsub c _ _ _ => some c
  | .qdadd c _ _ _ => some c
  | .qdsub c _ _ _ => some c
  | .mrs c _ _ => some c
  | .msrImm c _ _ _ _ => some c
  | .msrReg c _ _ _ => some c
  | .cps _ _ _ _ _ _ => none
  | .setend _ => none
  | .b c _ => some c
  | .bl c _ => some c
  | .blx1 _ _ => none
  | .blx2 c _ => some c
  | .bx c _ => some c
  | .bxj c _ => some c
  | .ldrImm c _ _ _ _ _ => some c
  | .ldrReg c _ _ _ _ _ _ _ => some c
  | .ldrbImm c _ _ _ _ _ => some c
  | .ldrbReg c _ _ _ _ _ _ _ => some c
  | .strImm c _ _ _ _ _ => some c
  | .strReg c _ _ _ _ _ _ _ => some c
  | .strbImm c _ _ _ _ _ => some c
  | .strbReg c _ _ _ _ _ _ _ => some c
  | .ldrtImm c _ _ _ _ => some c
  | .ldrtReg c _ _ _ _ _ _ => some c
  | .ldrbtImm c _ _ _ _ => some c
  | .ldrbtReg c _ _ _ _ _ _ => some c
  | .strtImm c _ _ _ _ => some c
  | .strtReg c _ _ _ _ _ _ => some c
  | .strbtImm c _ _ _ _ => some c
  | .strbtReg c _ _ _ _ _ _ => some c
  | .strhImm c _ _ _ _ _ => some c
  | .strhReg c _ _ _ _ _ => some c
  | .ldrdImm c _ _ _ _ _ => some c
  | .ldrdReg c _ _ _ _ _ => some c
  | .strdImm c _ _ _ _ _ => some c
  | .strdReg c _ _ _ _ _ => some c
  | .ldrhImm c _ _ _ _ _ => some c
  | .ldrhReg c _ _ _ _ _ => some c
  | .ldrsbImm c _ _ _ _ _ => some c
  | .ldrsbReg c _ _ _ _ _ => some c
  | .ldrshImm c _ _ _ _ _ => some c
  | .ldrshReg c _ _ _ _ _ => some c
  | .ldrex c _ _ => some c
  | .strex c _ _ _ => some c
  | .pldImm _ _ _ => none
  | .pldReg _ _ _ _ _ => none
  | .ldm1 c _ _ _ _ => some c
  | .ldm2 c _ _ _ => some c
  | .ldm3 c _ _ _ _ => some c
  | .stm1 c _ _ _ _ => some c
  | .stm2 c _ _ _ => some c
  | .rfe _ _ _ => none
  | .srs _ _ _ => none
  | .swp c _ _ _ => some c
  | .swpb c _ _ _ => some c
  | .swi c _ => some c
  | .bkpt c _ => some c
  | .undef c _ => some c
  | .cdp c _ _ _ _ _ _ => some c
  | .ldc c _ _ _ _ _ _ _ _ => some c
  | .stc c _ _ _ _ _ _ _ _ => some c
  | .mcr c _ _ _ _ _ _ => some c
  | .mrc c _ _ _ _ _ _ => some c
  | .mcrr c _ _ _ _ _ => some c
  | .mrrc c _ _ _ _ _ => some c
  | .cdp2 _ _ _ _ _ _ => none
  | .ldc2 _ _ _ _ _ _ _ _ => none
  | .stc2 _ _ _ _ _ _ _ _ => none
  | .mcr2 _ _ _ _ _ _ => none
  | .mrc2 _ _ _ _ _ _ => none
  | .mcrr2 _ _ _ _ _ => none
  | .mrrc2 _ _ _ _ _ => none

/-- The bytes an instruction may store to: an address and how many; none where it stores nothing. -/
def storeSpan (i : Instr) (s : State) : Option (Nat × Nat) :=
  let pairSpan := fun (im : IndexMode) (u : Bool) (rn : Reg) (off : Word) =>
    some ((accessAddress im (s.reg rn) off u).toNat, 8)
  let single := fun (k : Transfer) (o : Offset) (im : IndexMode) (u : Bool) (rn : Reg) =>
    some ((k.address o im u rn s).toNat, k.bytes)
  let block := fun (am : BlockMode) (rn : Reg) (list : BitVec 16) =>
    let n := (regList list).length
    some ((blockStart am (s.reg rn) n).toNat, 4 * n)
  let coproc := fun (cp : CpField) (p u : Bool) (rn : Reg) (imm8 : BitVec 8) =>
    (s.cpReply cp (encode i)).map fun r => ((cpAddress p u (s.reg rn) imm8).toNat, 4 * (r.more.length + 1))
  match i with
  | .strImm _ im u rn _ imm12 => single .str (.imm imm12) im u rn
  | .strReg _ im u rn _ imm5 ty rm => single .str (.reg imm5 ty rm) im u rn
  | .strbImm _ im u rn _ imm12 => single .strb (.imm imm12) im u rn
  | .strbReg _ im u rn _ imm5 ty rm => single .strb (.reg imm5 ty rm) im u rn
  | .strtImm _ u rn _ imm12 => single .strt (.imm imm12) .post u rn
  | .strtReg _ u rn _ imm5 ty rm => single .strt (.reg imm5 ty rm) .post u rn
  | .strbtImm _ u rn _ imm12 => single .strbt (.imm imm12) .post u rn
  | .strbtReg _ u rn _ imm5 ty rm => single .strbt (.reg imm5 ty rm) .post u rn
  | .strhImm _ im u rn _ imm8 => single .strh (.imm (imm8.setWidth 12)) im u rn
  | .strhReg _ im u rn _ rm => single .strh (.reg 0 .lsl rm) im u rn
  | .strdImm _ im u rn _ imm8 => pairSpan im u rn (imm8.setWidth 32)
  | .strdReg _ im u rn _ rm => pairSpan im u rn (s.reg rm)
  | .strex _ rn _ _ => some ((s.reg rn).toNat, 4)
  | .stm1 _ am _ rn list => block am rn list
  | .stm2 _ am rn list => block am rn list
  | .srs am _ mode => (modeOfNumber mode).map fun m => ((blockStart am (s.regOf m 13) 2).toNat, 8)
  | .swp _ rn _ _ => some ((s.reg rn).toNat, 4)
  | .swpb _ rn _ _ => some ((s.reg rn).toNat, 1)
  | .stc _ p u _ _ rn _ cp imm8 => coproc cp p u rn imm8
  | .stc2 p u _ _ rn _ cp imm8 => coproc cp p u rn imm8
  | _ => none

/-- The registers an instruction may write, as cells of the register file. -/
def destCells (i : Instr) (s : State) : List (Fin 30) :=
  let cur := fun (rs : List Reg) => (rs.filter (· != 15)).map (cell s.mode)
  match i with
  | .andShift _ _ _ rd _ _ _ => cur [rd]
  | .andReg _ _ _ rd _ _ _ => cur [rd]
  | .andImm _ _ _ rd _ _ => cur [rd]
  | .eorShift _ _ _ rd _ _ _ => cur [rd]
  | .eorReg _ _ _ rd _ _ _ => cur [rd]
  | .eorImm _ _ _ rd _ _ => cur [rd]
  | .subShift _ _ _ rd _ _ _ => cur [rd]
  | .subReg _ _ _ rd _ _ _ => cur [rd]
  | .subImm _ _ _ rd _ _ => cur [rd]
  | .rsbShift _ _ _ rd _ _ _ => cur [rd]
  | .rsbReg _ _ _ rd _ _ _ => cur [rd]
  | .rsbImm _ _ _ rd _ _ => cur [rd]
  | .addShift _ _ _ rd _ _ _ => cur [rd]
  | .addReg _ _ _ rd _ _ _ => cur [rd]
  | .addImm _ _ _ rd _ _ => cur [rd]
  | .adcShift _ _ _ rd _ _ _ => cur [rd]
  | .adcReg _ _ _ rd _ _ _ => cur [rd]
  | .adcImm _ _ _ rd _ _ => cur [rd]
  | .sbcShift _ _ _ rd _ _ _ => cur [rd]
  | .sbcReg _ _ _ rd _ _ _ => cur [rd]
  | .sbcImm _ _ _ rd _ _ => cur [rd]
  | .rscShift _ _ _ rd _ _ _ => cur [rd]
  | .rscReg _ _ _ rd _ _ _ => cur [rd]
  | .rscImm _ _ _ rd _ _ => cur [rd]
  | .tstShift _ _ _ _ _ => []
  | .tstReg _ _ _ _ _ => []
  | .tstImm _ _ _ _ => []
  | .teqShift _ _ _ _ _ => []
  | .teqReg _ _ _ _ _ => []
  | .teqImm _ _ _ _ => []
  | .cmpShift _ _ _ _ _ => []
  | .cmpReg _ _ _ _ _ => []
  | .cmpImm _ _ _ _ => []
  | .cmnShift _ _ _ _ _ => []
  | .cmnReg _ _ _ _ _ => []
  | .cmnImm _ _ _ _ => []
  | .orrShift _ _ _ rd _ _ _ => cur [rd]
  | .orrReg _ _ _ rd _ _ _ => cur [rd]
  | .orrImm _ _ _ rd _ _ => cur [rd]
  | .movShift _ _ rd _ _ _ => cur [rd]
  | .movReg _ _ rd _ _ _ => cur [rd]
  | .movImm _ _ rd _ _ => cur [rd]
  | .bicShift _ _ _ rd _ _ _ => cur [rd]
  | .bicReg _ _ _ rd _ _ _ => cur [rd]
  | .bicImm _ _ _ rd _ _ => cur [rd]
  | .mvnShift _ _ rd _ _ _ => cur [rd]
  | .mvnReg _ _ rd _ _ _ => cur [rd]
  | .mvnImm _ _ rd _ _ => cur [rd]
  | .mul _ _ rd _ _ => cur [rd]
  | .mla _ _ rd _ _ _ => cur [rd]
  | .umaal _ rdHi rdLo _ _ => cur [rdHi, rdLo]
  | .umull _ _ rdHi rdLo _ _ => cur [rdHi, rdLo]
  | .umlal _ _ rdHi rdLo _ _ => cur [rdHi, rdLo]
  | .smull _ _ rdHi rdLo _ _ => cur [rdHi, rdLo]
  | .smlal _ _ rdHi rdLo _ _ => cur [rdHi, rdLo]
  | .smlaXY _ rd _ _ _ _ _ => cur [rd]
  | .smlawY _ rd _ _ _ _ => cur [rd]
  | .smulwY _ rd _ _ _ => cur [rd]
  | .smlalXY _ rdHi rdLo _ _ _ _ => cur [rdHi, rdLo]
  | .smulXY _ rd _ _ _ _ => cur [rd]
  | .smuad _ rd _ _ _ => cur [rd]
  | .smusd _ rd _ _ _ => cur [rd]
  | .smlad _ rd _ _ _ _ => cur [rd]
  | .smlsd _ rd _ _ _ _ => cur [rd]
  | .smlald _ rdHi rdLo _ _ _ => cur [rdHi, rdLo]
  | .smlsld _ rdHi rdLo _ _ _ => cur [rdHi, rdLo]
  | .smmul _ rd _ _ _ => cur [rd]
  | .smmla _ rd _ _ _ _ => cur [rd]
  | .smmls _ rd _ _ _ _ => cur [rd]
  | .sadd16 _ _ rd _ => cur [rd]
  | .saddsubx _ _ rd _ => cur [rd]
  | .ssubaddx _ _ rd _ => cur [rd]
  | .ssub16 _ _ rd _ => cur [rd]
  | .sadd8 _ _ rd _ => cur [rd]
  | .ssub8 _ _ rd _ => cur [rd]
  | .qadd16 _ _ rd _ => cur [rd]
  | .qaddsubx _ _ rd _ => cur [rd]
  | .qsubaddx _ _ rd _ => cur [rd]
  | .qsub16 _ _ rd _ => cur [rd]
  | .qadd8 _ _ rd _ => cur [rd]
  | .qsub8 _ _ rd _ => cur [rd]
  | .shadd16 _ _ rd _ => cur [rd]
  | .shaddsubx _ _ rd _ => cur [rd]
  | .shsubaddx _ _ rd _ => cur [rd]
  | .shsub16 _ _ rd _ => cur [rd]
  | .shadd8 _ _ rd _ => cur [rd]
  | .shsub8 _ _ rd _ => cur [rd]
  | .uadd16 _ _ rd _ => cur [rd]
  | .uaddsubx _ _ rd _ => cur [rd]
  | .usubaddx _ _ rd _ => cur [rd]
  | .usub16 _ _ rd _ => cur [rd]
  | .uadd8 _ _ rd _ => cur [rd]
  | .usub8 _ _ rd _ => cur [rd]
  | .uqadd16 _ _ rd _ => cur [rd]
  | .uqaddsubx _ _ rd _ => cur [rd]
  | .uqsubaddx _ _ rd _ => cur [rd]
  | .uqsub16 _ _ rd _ => cur [rd]
  | .uqadd8 _ _ rd _ => cur [rd]
  | .uqsub8 _ _ rd _ => cur [rd]
  | .uhadd16 _ _ rd _ => cur [rd]
  | .uhaddsubx _ _ rd _ => cur [rd]
  | .uhsubaddx _ _ rd _ => cur [rd]
  | .uhsub16 _ _ rd _ => cur [rd]
  | .uhadd8 _ _ rd _ => cur [rd]
  | .uhsub8 _ _ rd _ => cur [rd]
  | .sxtab16 _ _ rd _ _ => cur [rd]
  | .sxtb16 _ rd _ _ => cur [rd]
  | .sxtab _ _ rd _ _ => cur [rd]
  | .sxtb _ rd _ _ => cur [rd]
  | .sxtah _ _ rd _ _ => cur [rd]
  | .sxth _ rd _ _ => cur [rd]
  | .uxtab16 _ _ rd _ _ => cur [rd]
  | .uxtb16 _ rd _ _ => cur [rd]
  | .uxtab _ _ rd _ _ => cur [rd]
  | .uxtb _ rd _ _ => cur [rd]
  | .uxtah _ _ rd _ _ => cur [rd]
  | .uxth _ rd _ _ => cur [rd]
  | .clz _ rd _ => cur [rd]
  | .usad8 _ rd _ _ => cur [rd]
  | .usada8 _ rd _ _ _ => cur [rd]
  | .pkhbt _ _ rd _ _ => cur [rd]
  | .pkhtb _ _ rd _ _ => cur [rd]
  | .rev _ rd _ => cur [rd]
  | .rev16 _ rd _ => cur [rd]
  | .revsh _ rd _ => cur [rd]
  | .sel _ _ rd _ => cur [rd]
  | .ssat _ _ rd _ _ _ => cur [rd]
  | .ssat16 _ _ rd _ => cur [rd]
  | .usat _ _ rd _ _ _ => cur [rd]
  | .usat16 _ _ rd _ => cur [rd]
  | .qadd _ _ rd _ => cur [rd]
  | .qsub _ _ rd _ => cur [rd]
  | .qdadd _ _ rd _ => cur [rd]
  | .qdsub _ _ rd _ => cur [rd]
  | .mrs _ _ rd => cur [rd]
  | .msrImm _ _ _ _ _ => []
  | .msrReg _ _ _ _ => []
  | .cps _ _ _ _ _ _ => []
  | .setend _ => []
  | .b _ _ => []
  | .bl _ _ => cur [14]
  | .blx1 _ _ => cur [14]
  | .blx2 _ _ => cur [14]
  | .bx _ _ => []
  | .bxj _ _ => []
  | .ldrImm _ im _ rn rd _ => cur (rd :: (if writesBack im then [rn] else []))
  | .ldrReg _ im _ rn rd _ _ _ => cur (rd :: (if writesBack im then [rn] else []))
  | .ldrbImm _ im _ rn rd _ => cur (rd :: (if writesBack im then [rn] else []))
  | .ldrbReg _ im _ rn rd _ _ _ => cur (rd :: (if writesBack im then [rn] else []))
  | .strImm _ im _ rn _ _ => cur (if writesBack im then [rn] else [])
  | .strReg _ im _ rn _ _ _ _ => cur (if writesBack im then [rn] else [])
  | .strbImm _ im _ rn _ _ => cur (if writesBack im then [rn] else [])
  | .strbReg _ im _ rn _ _ _ _ => cur (if writesBack im then [rn] else [])
  | .ldrtImm _ _ rn rd _ => cur [rd, rn]
  | .ldrtReg _ _ rn rd _ _ _ => cur [rd, rn]
  | .ldrbtImm _ _ rn rd _ => cur [rd, rn]
  | .ldrbtReg _ _ rn rd _ _ _ => cur [rd, rn]
  | .strtImm _ _ rn _ _ => cur [rn]
  | .strtReg _ _ rn _ _ _ _ => cur [rn]
  | .strbtImm _ _ rn _ _ => cur [rn]
  | .strbtReg _ _ rn _ _ _ _ => cur [rn]
  | .strhImm _ im _ rn _ _ => cur (if writesBack im then [rn] else [])
  | .strhReg _ im _ rn _ _ => cur (if writesBack im then [rn] else [])
  | .ldrdImm _ im _ rn rd _ => cur (rd :: (rd + 1) :: (if writesBack im then [rn] else []))
  | .ldrdReg _ im _ rn rd _ => cur (rd :: (rd + 1) :: (if writesBack im then [rn] else []))
  | .strdImm _ im _ rn _ _ => cur (if writesBack im then [rn] else [])
  | .strdReg _ im _ rn _ _ => cur (if writesBack im then [rn] else [])
  | .ldrhImm _ im _ rn rd _ => cur (rd :: (if writesBack im then [rn] else []))
  | .ldrhReg _ im _ rn rd _ => cur (rd :: (if writesBack im then [rn] else []))
  | .ldrsbImm _ im _ rn rd _ => cur (rd :: (if writesBack im then [rn] else []))
  | .ldrsbReg _ im _ rn rd _ => cur (rd :: (if writesBack im then [rn] else []))
  | .ldrshImm _ im _ rn rd _ => cur (rd :: (if writesBack im then [rn] else []))
  | .ldrshReg _ im _ rn rd _ => cur (rd :: (if writesBack im then [rn] else []))
  | .ldrex _ _ rd => cur [rd]
  | .strex _ _ rd _ => cur [rd]
  | .pldImm _ _ _ => []
  | .pldReg _ _ _ _ _ => []
  | .ldm1 _ _ w rn list => cur (regList list ++ (if w then [rn] else []))
  | .ldm2 _ _ _ list => ((regList (list.setWidth 16)).filter (· != 15)).map (cell .usr)
  | .ldm3 _ _ w rn list => cur (regList (list.setWidth 16) ++ (if w then [rn] else []))
  | .stm1 _ _ w rn _ => cur (if w then [rn] else [])
  | .stm2 _ _ _ _ => []
  | .rfe _ w rn => cur (if w then [rn] else [])
  | .srs _ w mode => if w then (modeOfNumber mode).toList.map (fun m => cell m 13) else []
  | .swp _ _ rd _ => cur [rd]
  | .swpb _ _ rd _ => cur [rd]
  | .swi _ _ => []
  | .bkpt _ _ => []
  | .undef _ _ => []
  | .cdp _ _ _ _ _ _ _ => []
  | .ldc _ _ _ _ w rn _ _ _ => cur (if w then [rn] else [])
  | .stc _ _ _ _ w rn _ _ _ => cur (if w then [rn] else [])
  | .mcr _ _ _ _ _ _ _ => []
  | .mrc _ _ _ rd _ _ _ => cur [rd]
  | .mcrr _ _ _ _ _ _ => []
  | .mrrc _ rn rd _ _ _ => cur [rd, rn]
  | .cdp2 _ _ _ _ _ _ => []
  | .ldc2 _ _ _ w rn _ _ _ => cur (if w then [rn] else [])
  | .stc2 _ _ _ w rn _ _ _ => cur (if w then [rn] else [])
  | .mcr2 _ _ _ _ _ _ => []
  | .mrc2 _ _ rd _ _ _ => cur [rd]
  | .mcrr2 _ _ _ _ _ => []
  | .mrrc2 rn rd _ _ _ => cur [rd, rn]

/-- The bits of the CPSR an instruction may write when it takes no exception. -/
def psrBits : Instr → Word
  | .andShift _ s _ rd _ _ _ => if s then (if rd = 15 then 0xFFFFFFFF else 0xF0000000) else 0
  | .andReg _ s _ rd _ _ _ => if s then (if rd = 15 then 0xFFFFFFFF else 0xF0000000) else 0
  | .andImm _ s _ rd _ _ => if s then (if rd = 15 then 0xFFFFFFFF else 0xF0000000) else 0
  | .eorShift _ s _ rd _ _ _ => if s then (if rd = 15 then 0xFFFFFFFF else 0xF0000000) else 0
  | .eorReg _ s _ rd _ _ _ => if s then (if rd = 15 then 0xFFFFFFFF else 0xF0000000) else 0
  | .eorImm _ s _ rd _ _ => if s then (if rd = 15 then 0xFFFFFFFF else 0xF0000000) else 0
  | .subShift _ s _ rd _ _ _ => if s then (if rd = 15 then 0xFFFFFFFF else 0xF0000000) else 0
  | .subReg _ s _ rd _ _ _ => if s then (if rd = 15 then 0xFFFFFFFF else 0xF0000000) else 0
  | .subImm _ s _ rd _ _ => if s then (if rd = 15 then 0xFFFFFFFF else 0xF0000000) else 0
  | .rsbShift _ s _ rd _ _ _ => if s then (if rd = 15 then 0xFFFFFFFF else 0xF0000000) else 0
  | .rsbReg _ s _ rd _ _ _ => if s then (if rd = 15 then 0xFFFFFFFF else 0xF0000000) else 0
  | .rsbImm _ s _ rd _ _ => if s then (if rd = 15 then 0xFFFFFFFF else 0xF0000000) else 0
  | .addShift _ s _ rd _ _ _ => if s then (if rd = 15 then 0xFFFFFFFF else 0xF0000000) else 0
  | .addReg _ s _ rd _ _ _ => if s then (if rd = 15 then 0xFFFFFFFF else 0xF0000000) else 0
  | .addImm _ s _ rd _ _ => if s then (if rd = 15 then 0xFFFFFFFF else 0xF0000000) else 0
  | .adcShift _ s _ rd _ _ _ => if s then (if rd = 15 then 0xFFFFFFFF else 0xF0000000) else 0
  | .adcReg _ s _ rd _ _ _ => if s then (if rd = 15 then 0xFFFFFFFF else 0xF0000000) else 0
  | .adcImm _ s _ rd _ _ => if s then (if rd = 15 then 0xFFFFFFFF else 0xF0000000) else 0
  | .sbcShift _ s _ rd _ _ _ => if s then (if rd = 15 then 0xFFFFFFFF else 0xF0000000) else 0
  | .sbcReg _ s _ rd _ _ _ => if s then (if rd = 15 then 0xFFFFFFFF else 0xF0000000) else 0
  | .sbcImm _ s _ rd _ _ => if s then (if rd = 15 then 0xFFFFFFFF else 0xF0000000) else 0
  | .rscShift _ s _ rd _ _ _ => if s then (if rd = 15 then 0xFFFFFFFF else 0xF0000000) else 0
  | .rscReg _ s _ rd _ _ _ => if s then (if rd = 15 then 0xFFFFFFFF else 0xF0000000) else 0
  | .rscImm _ s _ rd _ _ => if s then (if rd = 15 then 0xFFFFFFFF else 0xF0000000) else 0
  | .tstShift _ _ _ _ _ => 0xF0000000
  | .tstReg _ _ _ _ _ => 0xF0000000
  | .tstImm _ _ _ _ => 0xF0000000
  | .teqShift _ _ _ _ _ => 0xF0000000
  | .teqReg _ _ _ _ _ => 0xF0000000
  | .teqImm _ _ _ _ => 0xF0000000
  | .cmpShift _ _ _ _ _ => 0xF0000000
  | .cmpReg _ _ _ _ _ => 0xF0000000
  | .cmpImm _ _ _ _ => 0xF0000000
  | .cmnShift _ _ _ _ _ => 0xF0000000
  | .cmnReg _ _ _ _ _ => 0xF0000000
  | .cmnImm _ _ _ _ => 0xF0000000
  | .orrShift _ s _ rd _ _ _ => if s then (if rd = 15 then 0xFFFFFFFF else 0xF0000000) else 0
  | .orrReg _ s _ rd _ _ _ => if s then (if rd = 15 then 0xFFFFFFFF else 0xF0000000) else 0
  | .orrImm _ s _ rd _ _ => if s then (if rd = 15 then 0xFFFFFFFF else 0xF0000000) else 0
  | .movShift _ s rd _ _ _ => if s then (if rd = 15 then 0xFFFFFFFF else 0xF0000000) else 0
  | .movReg _ s rd _ _ _ => if s then (if rd = 15 then 0xFFFFFFFF else 0xF0000000) else 0
  | .movImm _ s rd _ _ => if s then (if rd = 15 then 0xFFFFFFFF else 0xF0000000) else 0
  | .bicShift _ s _ rd _ _ _ => if s then (if rd = 15 then 0xFFFFFFFF else 0xF0000000) else 0
  | .bicReg _ s _ rd _ _ _ => if s then (if rd = 15 then 0xFFFFFFFF else 0xF0000000) else 0
  | .bicImm _ s _ rd _ _ => if s then (if rd = 15 then 0xFFFFFFFF else 0xF0000000) else 0
  | .mvnShift _ s rd _ _ _ => if s then (if rd = 15 then 0xFFFFFFFF else 0xF0000000) else 0
  | .mvnReg _ s rd _ _ _ => if s then (if rd = 15 then 0xFFFFFFFF else 0xF0000000) else 0
  | .mvnImm _ s rd _ _ => if s then (if rd = 15 then 0xFFFFFFFF else 0xF0000000) else 0
  | .mul _ s _ _ _ => if s then 0xC0000000 else 0
  | .mla _ s _ _ _ _ => if s then 0xC0000000 else 0
  | .umaal _ _ _ _ _ => 0
  | .umull _ s _ _ _ _ => if s then 0xC0000000 else 0
  | .umlal _ s _ _ _ _ => if s then 0xC0000000 else 0
  | .smull _ s _ _ _ _ => if s then 0xC0000000 else 0
  | .smlal _ s _ _ _ _ => if s then 0xC0000000 else 0
  | .smlaXY _ _ _ _ _ _ _ => 0x08000000
  | .smlawY _ _ _ _ _ _ => 0x08000000
  | .smulwY _ _ _ _ _ => 0
  | .smlalXY _ _ _ _ _ _ _ => 0
  | .smulXY _ _ _ _ _ _ => 0
  | .smuad _ _ _ _ _ => 0x08000000
  | .smusd _ _ _ _ _ => 0
  | .smlad _ _ _ _ _ _ => 0x08000000
  | .smlsd _ _ _ _ _ _ => 0x08000000
  | .smlald _ _ _ _ _ _ => 0
  | .smlsld _ _ _ _ _ _ => 0
  | .smmul _ _ _ _ _ => 0
  | .smmla _ _ _ _ _ _ => 0
  | .smmls _ _ _ _ _ _ => 0
  | .sadd16 _ _ _ _ => 0x000F0000
  | .saddsubx _ _ _ _ => 0x000F0000
  | .ssubaddx _ _ _ _ => 0x000F0000
  | .ssub16 _ _ _ _ => 0x000F0000
  | .sadd8 _ _ _ _ => 0x000F0000
  | .ssub8 _ _ _ _ => 0x000F0000
  | .qadd16 _ _ _ _ => 0
  | .qaddsubx _ _ _ _ => 0
  | .qsubaddx _ _ _ _ => 0
  | .qsub16 _ _ _ _ => 0
  | .qadd8 _ _ _ _ => 0
  | .qsub8 _ _ _ _ => 0
  | .shadd16 _ _ _ _ => 0
  | .shaddsubx _ _ _ _ => 0
  | .shsubaddx _ _ _ _ => 0
  | .shsub16 _ _ _ _ => 0
  | .shadd8 _ _ _ _ => 0
  | .shsub8 _ _ _ _ => 0
  | .uadd16 _ _ _ _ => 0x000F0000
  | .uaddsubx _ _ _ _ => 0x000F0000
  | .usubaddx _ _ _ _ => 0x000F0000
  | .usub16 _ _ _ _ => 0x000F0000
  | .uadd8 _ _ _ _ => 0x000F0000
  | .usub8 _ _ _ _ => 0x000F0000
  | .uqadd16 _ _ _ _ => 0
  | .uqaddsubx _ _ _ _ => 0
  | .uqsubaddx _ _ _ _ => 0
  | .uqsub16 _ _ _ _ => 0
  | .uqadd8 _ _ _ _ => 0
  | .uqsub8 _ _ _ _ => 0
  | .uhadd16 _ _ _ _ => 0
  | .uhaddsubx _ _ _ _ => 0
  | .uhsubaddx _ _ _ _ => 0
  | .uhsub16 _ _ _ _ => 0
  | .uhadd8 _ _ _ _ => 0
  | .uhsub8 _ _ _ _ => 0
  | .sxtab16 _ _ _ _ _ => 0
  | .sxtb16 _ _ _ _ => 0
  | .sxtab _ _ _ _ _ => 0
  | .sxtb _ _ _ _ => 0
  | .sxtah _ _ _ _ _ => 0
  | .sxth _ _ _ _ => 0
  | .uxtab16 _ _ _ _ _ => 0
  | .uxtb16 _ _ _ _ => 0
  | .uxtab _ _ _ _ _ => 0
  | .uxtb _ _ _ _ => 0
  | .uxtah _ _ _ _ _ => 0
  | .uxth _ _ _ _ => 0
  | .clz _ _ _ => 0
  | .usad8 _ _ _ _ => 0
  | .usada8 _ _ _ _ _ => 0
  | .pkhbt _ _ _ _ _ => 0
  | .pkhtb _ _ _ _ _ => 0
  | .rev _ _ _ => 0
  | .rev16 _ _ _ => 0
  | .revsh _ _ _ => 0
  | .sel _ _ _ _ => 0
  | .ssat _ _ _ _ _ _ => 0x08000000
  | .ssat16 _ _ _ _ => 0x08000000
  | .usat _ _ _ _ _ _ => 0x08000000
  | .usat16 _ _ _ _ => 0x08000000
  | .qadd _ _ _ _ => 0x08000000
  | .qsub _ _ _ _ => 0x08000000
  | .qdadd _ _ _ _ => 0x08000000
  | .qdsub _ _ _ _ => 0x08000000
  | .mrs _ _ _ => 0
  | .msrImm _ r mask _ _ => if r then 0 else byteMask mask &&& 0xF80F03DF
  | .msrReg _ r mask _ => if r then 0 else byteMask mask &&& 0xF80F03DF
  | .cps _ _ _ _ _ _ => 0x000001DF
  | .setend _ => 0x00000200
  | .b _ _ => 0
  | .bl _ _ => 0
  | .blx1 _ _ => 0x00000020
  | .blx2 _ _ => 0x00000020
  | .bx _ _ => 0x00000020
  | .bxj _ _ => 0x00000020
  | .ldrImm _ _ _ _ rd _ => if rd = 15 then 0x00000020 else 0
  | .ldrReg _ _ _ _ rd _ _ _ => if rd = 15 then 0x00000020 else 0
  | .ldrbImm _ _ _ _ _ _ => 0
  | .ldrbReg _ _ _ _ _ _ _ _ => 0
  | .strImm _ _ _ _ _ _ => 0
  | .strReg _ _ _ _ _ _ _ _ => 0
  | .strbImm _ _ _ _ _ _ => 0
  | .strbReg _ _ _ _ _ _ _ _ => 0
  | .ldrtImm _ _ _ _ _ => 0
  | .ldrtReg _ _ _ _ _ _ _ => 0
  | .ldrbtImm _ _ _ _ _ => 0
  | .ldrbtReg _ _ _ _ _ _ _ => 0
  | .strtImm _ _ _ _ _ => 0
  | .strtReg _ _ _ _ _ _ _ => 0
  | .strbtImm _ _ _ _ _ => 0
  | .strbtReg _ _ _ _ _ _ _ => 0
  | .strhImm _ _ _ _ _ _ => 0
  | .strhReg _ _ _ _ _ _ => 0
  | .ldrdImm _ _ _ _ _ _ => 0
  | .ldrdReg _ _ _ _ _ _ => 0
  | .strdImm _ _ _ _ _ _ => 0
  | .strdReg _ _ _ _ _ _ => 0
  | .ldrhImm _ _ _ _ _ _ => 0
  | .ldrhReg _ _ _ _ _ _ => 0
  | .ldrsbImm _ _ _ _ _ _ => 0
  | .ldrsbReg _ _ _ _ _ _ => 0
  | .ldrshImm _ _ _ _ _ _ => 0
  | .ldrshReg _ _ _ _ _ _ => 0
  | .ldrex _ _ _ => 0
  | .strex _ _ _ _ => 0
  | .pldImm _ _ _ => 0
  | .pldReg _ _ _ _ _ => 0
  | .ldm1 _ _ _ _ list => if list.getLsbD 15 then 0x00000020 else 0
  | .ldm2 _ _ _ _ => 0
  | .ldm3 _ _ _ _ _ => 0xFFFFFFFF
  | .stm1 _ _ _ _ _ => 0
  | .stm2 _ _ _ _ => 0
  | .rfe _ _ _ => 0xFFFFFFFF
  | .srs _ _ _ => 0
  | .swp _ _ _ _ => 0
  | .swpb _ _ _ _ => 0
  | .swi _ _ => 0
  | .bkpt _ _ => 0
  | .undef _ _ => 0
  | .cdp _ _ _ _ _ _ _ => 0
  | .ldc _ _ _ _ _ _ _ _ _ => 0
  | .stc _ _ _ _ _ _ _ _ _ => 0
  | .mcr _ _ _ _ _ _ _ => 0
  | .mrc _ _ _ rd _ _ _ => if rd = 15 then 0xF0000000 else 0
  | .mcrr _ _ _ _ _ _ => 0
  | .mrrc _ _ _ _ _ _ => 0
  | .cdp2 _ _ _ _ _ _ => 0
  | .ldc2 _ _ _ _ _ _ _ _ => 0
  | .stc2 _ _ _ _ _ _ _ _ => 0
  | .mcr2 _ _ _ _ _ _ => 0
  | .mrc2 _ _ rd _ _ _ => if rd = 15 then 0xF0000000 else 0
  | .mcrr2 _ _ _ _ _ => 0
  | .mrrc2 _ _ _ _ _ => 0

/-- The register fields of an instruction in which R15 is not allowed and whose check is the first thing its execution
does (10_state.md R35; the lists are those of the instructions' own rules). Of LDRD, STRD and the coprocessor instructions
another check comes first; they have none here. -/
def noPcFields : Instr → List Reg
  | .andShift _ _ _ _ _ _ _ => []
  | .andReg _ _ rn rd rs _ rm => [rd, rn, rs, rm]
  | .andImm _ _ _ _ _ _ => []
  | .eorShift _ _ _ _ _ _ _ => []
  | .eorReg _ _ rn rd rs _ rm => [rd, rn, rs, rm]
  | .eorImm _ _ _ _ _ _ => []
  | .subShift _ _ _ _ _ _ _ => []
  | .subReg _ _ rn rd rs _ rm => [rd, rn, rs, rm]
  | .subImm _ _ _ _ _ _ => []
  | .rsbShift _ _ _ _ _ _ _ => []
  | .rsbReg _ _ rn rd rs _ rm => [rd, rn, rs, rm]
  | .rsbImm _ _ _ _ _ _ => []
  | .addShift _ _ _ _ _ _ _ => []
  | .addReg _ _ rn rd rs _ rm => [rd, rn, rs, rm]
  | .addImm _ _ _ _ _ _ => []
  | .adcShift _ _ _ _ _ _ _ => []
  | .adcReg _ _ rn rd rs _ rm => [rd, rn, rs, rm]
  | .adcImm _ _ _ _ _ _ => []
  | .sbcShift _ _ _ _ _ _ _ => []
  | .sbcReg _ _ rn rd rs _ rm => [rd, rn, rs, rm]
  | .sbcImm _ _ _ _ _ _ => []
  | .rscShift _ _ _ _ _ _ _ => []
  | .rscReg _ _ rn rd rs _ rm => [rd, rn, rs, rm]
  | .rscImm _ _ _ _ _ _ => []
  | .tstShift _ _ _ _ _ => []
  | .tstReg _ rn rs _ rm => [rn, rs, rm]
  | .tstImm _ _ _ _ => []
  | .teqShift _ _ _ _ _ => []
  | .teqReg _ rn rs _ rm => [rn, rs, rm]
  | .teqImm _ _ _ _ => []
  | .cmpShift _ _ _ _ _ => []
  | .cmpReg _ rn rs _ rm => [rn, rs, rm]
  | .cmpImm _ _ _ _ => []
  | .cmnShift _ _ _ _ _ => []
  | .cmnReg _ rn rs _ rm => [rn, rs, rm]
  | .cmnImm _ _ _ _ => []
  | .orrShift _ _ _ _ _ _ _ => []
  | .orrReg _ _ rn rd rs _ rm => [rd, rn, rs, rm]
  | .orrImm _ _ _ _ _ _ => []
  | .movShift _ _ _ _ _ _ => []
  | .movReg _ _ rd rs _ rm => [rd, rs, rm]
  | .movImm _ _ _ _ _ => []
  | .bicShift _ _ _ _ _ _ _ => []
  | .bicReg _ _ rn rd rs _ rm => [rd, rn, rs, rm]
  | .bicImm _ _ _ _ _ _ => []
  | .mvnShift _ _ _ _ _ _ => []
  | .mvnReg _ _ rd rs _ rm => [rd, rs, rm]
  | .mvnImm _ _ _ _ _ => []
  | .mul _ _ rd rs rm => [rd, rs, rm]
  | .mla _ _ rd rn rs rm => [rd, rn, rs, rm]
  | .umaal _ rdHi rdLo rs rm => [rdHi, rdLo, rs, rm]
  | .umull _ _ rdHi rdLo rs rm => [rdHi, rdLo, rs, rm]
  | .umlal _ _ rdHi rdLo rs rm => [rdHi, rdLo, rs, rm]
  | .smull _ _ rdHi rdLo rs rm => [rdHi, rdLo, rs, rm]
  | .smlal _ _ rdHi rdLo rs rm => [rdHi, rdLo, rs, rm]
  | .smlaXY _ rd rn rs _ _ rm => [rd, rn, rs, rm]
  | .smlawY _ rd rn rs _ rm => [rd, rn, rs, rm]
  | .smulwY _ rd rs _ rm => [rd, rs, rm]
  | .smlalXY _ rdHi rdLo rs _ _ rm => [rdHi, rdLo, rs, rm]
  | .smulXY _ rd rs _ _ rm => [rd, rs, rm]
  | .smuad _ rd rs _ rm => [rd, rs, rm]
  | .smusd _ rd rs _ rm => [rd, rs, rm]
  | .smlad _ rd rn rs _ rm => [rd, rn, rs, rm]
  | .smlsd _ rd rn rs _ rm => [rd, rn, rs, rm]
  | .smlald _ rdHi rdLo rs _ rm => [rdHi, rdLo, rs, rm]
  | .smlsld _ rdHi rdLo rs _ rm => [rdHi, rdLo, rs, rm]
  | .smmul _ rd rs _ rm => [rd, rs, rm]
  | .smmla _ rd rn rs _ rm => [rd, rn, rs, rm]
  | .smmls _ rd rn rs _ rm => [rd, rn, rs, rm]
  | .sadd16 _ rn rd rm => [rd, rn, rm]
  | .saddsubx _ rn rd rm => [rd, rn, rm]
  | .ssubaddx _ rn rd rm => [rd, rn, rm]
  | .ssub16 _ rn rd rm => [rd, rn, rm]
  | .sadd8 _ rn rd rm => [rd, rn, rm]
  | .ssub8 _ rn rd rm => [rd, rn, rm]
  | .qadd16 _ rn rd rm => [rd, rn, rm]
  | .qaddsubx _ rn rd rm => [rd, rn, rm]
  | .qsubaddx _ rn rd rm => [rd, rn, rm]
  | .qsub16 _ rn rd rm => [rd, rn, rm]
  | .qadd8 _ rn rd rm => [rd, rn, rm]
  | .qsub8 _ rn rd rm => [rd, rn, rm]
  | .shadd16 _ rn rd rm => [rd, rn, rm]
  | .shaddsubx _ rn rd rm => [rd, rn, rm]
  | .shsubaddx _ rn rd rm => [rd, rn, rm]
  | .shsub16 _ rn rd rm => [rd, rn, rm]
  | .shadd8 _ rn rd rm => [rd, rn, rm]
  | .shsub8 _ rn rd rm => [rd, rn, rm]
  | .uadd16 _ rn rd rm => [rd, rn, rm]
  | .uaddsubx _ rn rd rm => [rd, rn, rm]
  | .usubaddx _ rn rd rm => [rd, rn, rm]
  | .usub16 _ rn rd rm => [rd, rn, rm]
  | .uadd8 _ rn rd rm => [rd, rn, rm]
  | .usub8 _ rn rd rm => [rd, rn, rm]
  | .uqadd16 _ rn rd rm => [rd, rn, rm]
  | .uqaddsubx _ rn rd rm => [rd, rn, rm]
  | .uqsubaddx _ rn rd rm => [rd, rn, rm]
  | .uqsub16 _ rn rd rm => [rd, rn, rm]
  | .uqadd8 _ rn rd rm => [rd, rn, rm]
  | .uqsub8 _ rn rd rm => [rd, rn, rm]
  | .uhadd16 _ rn rd rm => [rd, rn, rm]
  | .uhaddsubx _ rn rd rm => [rd, rn, rm]
  | .uhsubaddx _ rn rd rm => [rd, rn, rm]
  | .uhsub16 _ rn rd rm => [rd, rn, rm]
  | .uhadd8 _ rn rd rm => [rd, rn, rm]
  | .uhsub8 _ rn rd rm => [rd, rn, rm]
  | .sxtab16 _ rn rd _ rm => [rd, rn, rm]
  | .sxtb16 _ rd _ rm => [rd, rm]
  | .sxtab _ rn rd _ rm => [rd, rn, rm]
  | .sxtb _ rd _ rm => [rd, rm]
  | .sxtah _ rn rd _ rm => [rd, rn, rm]
  | .sxth _ rd _ rm => [rd, rm]
  | .uxtab16 _ rn rd _ rm => [rd, rn, rm]
  | .uxtb16 _ rd _ rm => [rd, rm]
  | .uxtab _ rn rd _ rm => [rd, rn, rm]
  | .uxtb _ rd _ rm => [rd, rm]
  | .uxtah _ rn rd _ rm => [rd, rn, rm]
  | .uxth _ rd _ rm => [rd, rm]
  | .clz _ rd rm => [rd, rm]
  | .usad8 _ rd rs rm => [rd, rs, rm]
  | .usada8 _ rd rn rs rm => [rd, rn, rs, rm]
  | .pkhbt _ rn rd _ rm => [rd, rn, rm]
  | .pkhtb _ rn rd _ rm => [rd, rn, rm]
  | .rev _ rd rm => [rd, rm]
  | .rev16 _ rd rm => [rd, rm]
  | .revsh _ rd rm => [rd, rm]
  | .sel _ rn rd rm => [rd, rn, rm]
  | .ssat _ _ rd _ _ rm => [rd, rm]
  | .ssat16 _ _ rd rm => [rd, rm]
  | .usat _ _ rd _ _ rm => [rd, rm]
  | .usat16 _ _ rd rm => [rd, rm]
  | .qadd _ rn rd rm => [rd, rn, rm]
  | .qsub _ rn rd rm => [rd, rn, rm]
  | .qdadd _ rn rd rm => [rd, rn, rm]
  | .qdsub _ rn rd rm => [rd, rn, rm]
  | .mrs _ _ rd => [rd]
  | .msrImm _ _ _ _ _ => []
  | .msrReg _ _ _ rm => [rm]
  | .cps _ _ _ _ _ _ => []
  | .setend _ => []
  | .b _ _ => []
  | .bl _ _ => []
  | .blx1 _ _ => []
  | .blx2 _ rm => [rm]
  | .bx _ _ => []
  | .bxj _ rm => [rm]
  | .ldrImm _ im _ rn _ _ => (if writesBack im then [rn] else [])
  | .ldrReg _ im _ rn _ _ _ rm => [rm] ++ (if writesBack im then [rn] else [])
  | .ldrbImm _ im _ rn rd _ => [rd] ++ (if writesBack im then [rn] else [])
  | .ldrbReg _ im _ rn rd _ _ rm => [rm, rd] ++ (if writesBack im then [rn] else [])
  | .strImm _ im _ rn _ _ => (if writesBack im then [rn] else [])
  | .strReg _ im _ rn _ _ _ rm => [rm] ++ (if writesBack im then [rn] else [])
  | .strbImm _ im _ rn rd _ => [rd] ++ (if writesBack im then [rn] else [])
  | .strbReg _ im _ rn rd _ _ rm => [rm, rd] ++ (if writesBack im then [rn] else [])
  | .ldrtImm _ _ rn rd _ => [rd, rn]
  | .ldrtReg _ _ rn rd _ _ rm => [rm, rd, rn]
  | .ldrbtImm _ _ rn rd _ => [rd, rn]
  | .ldrbtReg _ _ rn rd _ _ rm => [rm, rd, rn]
  | .strtImm _ _ rn rd _ => [rd, rn]
  | .strtReg _ _ rn rd _ _ rm => [rm, rd, rn]
  | .strbtImm _ _ rn rd _ => [rd, rn]
  | .strbtReg _ _ rn rd _ _ rm => [rm, rd, rn]
  | .strhImm _ im _ rn rd _ => [rd] ++ (if writesBack im then [rn] else [])
  | .strhReg _ im _ rn rd rm => [rm, rd] ++ (if writesBack im then [rn] else [])
  | .ldrdImm _ _ _ _ _ _ => []
  | .ldrdReg _ _ _ _ _ _ => []
  | .strdImm _ _ _ _ _ _ => []
  | .strdReg _ _ _ _ _ _ => []
  | .ldrhImm _ im _ rn rd _ => [rd] ++ (if writesBack im then [rn] else [])
  | .ldrhReg _ im _ rn rd rm => [rm, rd] ++ (if writesBack im then [rn] else [])
  | .ldrsbImm _ im _ rn rd _ => [rd] ++ (if writesBack im then [rn] else [])
  | .ldrsbReg _ im _ rn rd rm => [rm, rd] ++ (if writesBack im then [rn] else [])
  | .ldrshImm _ im _ rn rd _ => [rd] ++ (if writesBack im then [rn] else [])
  | .ldrshReg _ im _ rn rd rm => [rm, rd] ++ (if writesBack im then [rn] else [])
  | .ldrex _ rn rd => [rd, rn]
  | .strex _ rn rd rm => [rd, rn, rm]
  | .pldImm _ _ _ => []
  | .pldReg _ _ _ _ rm => [rm]
  | .ldm1 _ _ _ rn _ => [rn]
  | .ldm2 _ _ rn _ => [rn]
  | .ldm3 _ _ _ rn _ => [rn]
  | .stm1 _ _ _ rn _ => [rn]
  | .stm2 _ _ rn _ => [rn]
  | .rfe _ _ rn => [rn]
  | .srs _ _ _ => []
  | .swp _ rn rd rm => [rd, rn, rm]
  | .swpb _ rn rd rm => [rd, rn, rm]
  | .swi _ _ => []
  | .bkpt _ _ => []
  | .undef _ _ => []
  | .cdp _ _ _ _ _ _ _ => []
  | .ldc _ _ _ _ _ _ _ _ _ => []
  | .stc _ _ _ _ _ _ _ _ _ => []
  | .mcr _ _ _ _ _ _ _ => []
  | .mrc _ _ _ _ _ _ _ => []
  | .mcrr _ _ _ _ _ _ => []
  | .mrrc _ _ _ _ _ _ => []
  | .cdp2 _ _ _ _ _ _ => []
  | .ldc2 _ _ _ _ _ _ _ _ => []
  | .stc2 _ _ _ _ _ _ _ _ => []
  | .mcr2 _ _ _ _ _ _ => []
  | .mrc2 _ _ _ _ _ _ => []
  | .mcrr2 _ _ _ _ _ => []
  | .mrrc2 _ _ _ _ _ => []

/-- The coprocessor an instruction is offered to (49_exception_coprocessor.md R510). -/
def cpOf : Instr → Option CpField
  | .cdp _ _ _ _ cp _ _ => some cp
  | .ldc _ _ _ _ _ _ _ cp _ => some cp
  | .stc _ _ _ _ _ _ _ cp _ => some cp
  | .mcr _ _ _ _ cp _ _ => some cp
  | .mrc _ _ _ _ cp _ _ => some cp
  | .mcrr _ _ _ cp _ _ => some cp
  | .mrrc _ _ _ cp _ _ => some cp
  | .cdp2 _ _ _ cp _ _ => some cp
  | .ldc2 _ _ _ _ _ _ cp _ => some cp
  | .stc2 _ _ _ _ _ _ cp _ => some cp
  | .mcr2 _ _ _ cp _ _ => some cp
  | .mrc2 _ _ _ cp _ _ => some cp
  | .mcrr2 _ _ cp _ _ => some cp
  | .mrrc2 _ _ cp _ _ => some cp
  | _ => none

/-- The instructions that may end elsewhere than at the next word without taking an exception: the branches, and what
writes R15 (41_branch.md R180, R187; 47_load_store.md R431; 48_load_store_multiple_semaphore.md R474, R476, R480). -/
def WritesPc (i : Instr) : Prop :=
  (∃ c imm, i = .b c imm) ∨ (∃ c imm, i = .bl c imm) ∨ (∃ h imm, i = .blx1 h imm) ∨ (∃ c rm, i = .blx2 c rm) ∨
  (∃ c rm, i = .bx c rm) ∨ (∃ c rm, i = .bxj c rm) ∨
  (∃ op o c sf rn, op ∉ [DpOp.tst, .teq, .cmp, .cmn] ∧ i = dpForm op o c sf rn 15) ∨
  (∃ o c im u rn, i = Transfer.ldr.form o c im u rn 15) ∨
  (∃ c am w rn list, list.getLsbD 15 = true ∧ i = .ldm1 c am w rn list) ∨
  (∃ c am w rn list, i = .ldm3 c am w rn list) ∨ ∃ am w rn, i = .rfe am w rn

/-- The step took an exception: the state is the entry of one from a state with the same status registers, PC and
platform, in which at most registers and memory words have become unknown. -/
def Raised (s t : State) : Prop :=
  ∃ k u, u.cpsr = s.cpsr ∧ u.pc = s.pc ∧ u.spsr = s.spsr ∧ u.platform = s.platform ∧ t = takeException k u

end Sys2Proof.Machine
end

