-- ==== Sys2Proof/Certificates/Slice0/Obligations.lean ====
section
/-! DEFINITION. The statements for the provers, in the order of OBLIGATIONS.json. In a statement `s` is the state before
an instruction and `t` the state after it. The forms and terms used are those of Sys2Proof/Safety.lean. -/
open Sys2Proof Sys2Proof.Machine

/-! ### Encoding -/

/-- Decoding the word of a well-formed instruction gives the instruction back (30_encoding.md section 5), for every
instruction and every value of its operands. -/
def Obligations.DecodeOfEncode : Prop :=
  ∀ i : Instr, i.wf = true → decodeWord (encode i) = .instr i

/-- A word that decodes to an instruction is the word of that instruction, and the instruction is well formed: no bit of an
instruction word is dropped (30_encoding.md section 5). -/
def Obligations.EncodeOfDecode : Prop :=
  ∀ (w : Word) (i : Instr), decodeWord w = .instr i → encode i = w ∧ i.wf = true

/-- At most one row of the opcode table accepts a word, so the order of the table decides nothing (30_encoding.md
section 5). -/
def Obligations.RowsAreDisjoint : Prop :=
  ∀ (w : Word) (j k : Nat) (a b : Row), table[j]? = some a → table[k]? = some b →
    a.accepts w = true → b.accepts w = true → j = k

/-- A few words, each written out from the encoding the spec gives its instruction; the UNDEFINED and UNPREDICTABLE
classes (30_encoding.md sections 3 to 6). -/
def Obligations.SampleWordsDecode : Prop :=
  decodeWord 0xE0810002 = .instr (.addShift .al false 1 0 0 .lsl 2) ∧
  decodeWord 0xE0140192 = .instr (.mul .al true 4 1 2) ∧
  decodeWord 0xE6110F12 = .instr (.sadd16 .al 1 0 2) ∧
  decodeWord 0xE12FFF1E = .instr (.bx .al 14) ∧
  decodeWord 0xE5B01004 = .instr (.ldrImm .al .pre true 0 1 4) ∧
  decodeWord 0xE8BD9FFF = .instr (.ldm1 .al .ia true 13 0x9FFF) ∧
  decodeWord 0xE121F000 = .instr (.msrReg .al false 1 0) ∧
  decodeWord 0xEF123456 = .instr (.swi .al 0x123456) ∧
  decodeWord 0xEE277EDC = .instr (.mcr .al 1 7 7 14 6 12) ∧
  decodeWord 0xE3000000 = .undefined ∧
  decodeWord 0xE10F0800 = .unpredictable

/-! ### The condition and the step -/

/-- The table of the conditions, and the complement of each pair of codes (40_condition_execution.md R161). -/
def Obligations.ConditionTable : Prop :=
  ∀ s : State,
    conditionPassed (Cond.ofCode 0b0000) s = s.z ∧
    conditionPassed (Cond.ofCode 0b0001) s = !s.z ∧
    conditionPassed (Cond.ofCode 0b0010) s = s.c ∧
    conditionPassed (Cond.ofCode 0b0011) s = !s.c ∧
    conditionPassed (Cond.ofCode 0b0100) s = s.n ∧
    conditionPassed (Cond.ofCode 0b0101) s = !s.n ∧
    conditionPassed (Cond.ofCode 0b0110) s = s.v ∧
    conditionPassed (Cond.ofCode 0b0111) s = !s.v ∧
    conditionPassed (Cond.ofCode 0b1000) s = (s.c && !s.z) ∧
    conditionPassed (Cond.ofCode 0b1001) s = (!s.c || s.z) ∧
    conditionPassed (Cond.ofCode 0b1010) s = (s.n == s.v) ∧
    conditionPassed (Cond.ofCode 0b1011) s = (s.n != s.v) ∧
    conditionPassed (Cond.ofCode 0b1100) s = (!s.z && s.n == s.v) ∧
    conditionPassed (Cond.ofCode 0b1101) s = (s.z || s.n != s.v) ∧
    conditionPassed (Cond.ofCode 0b1110) s = true ∧
    ∀ k : Fin 7, conditionPassed (Cond.ofCode (BitVec.ofNat 4 (2 * k + 1))) s =
      !conditionPassed (Cond.ofCode (BitVec.ofNat 4 (2 * k))) s

/-- A failed condition makes the instruction a NOP (40_condition_execution.md R162): nothing but the PC changes, for every
instruction with a condition, and in a step for every word with a condition, UNDEFINED and UNPREDICTABLE ones too; past the
last word of the address space there is no next instruction, and it faults (10_state.md section 3). The interrupts and the
fetch abort come first all the same: a fetch that is forbidden or that the memory system aborts takes the Prefetch Abort. That it does so before a
byte the program has written is refused is the model's choice (notes/assumptions/32.md). -/
def Obligations.FailedConditionIsNop : Prop :=
  (∀ (i : Instr) (c : Cond) (s : State), condOf i = some c → conditionPassed c s = false →
    (s.pc.toNat + 4 < 2 ^ 32 → exec i s = .next s.afterNothing) ∧
    (2 ^ 32 ≤ s.pc.toNat + 4 → exec i s = .fault .pcWrap)) ∧
  (∀ (s : State) (w : Word), s.interrupt = none → s.t = false → s.j = false → s.fetches w →
    field w 28 4 ≠ 0b1111 → conditionPassed (Cond.ofCode (field w 28 4)) s = false →
    (s.pc.toNat + 4 < 2 ^ 32 → step s = .next s.tick.afterNothing) ∧
    (2 ^ 32 ≤ s.pc.toNat + 4 → step s = .fault .pcWrap)) ∧
  (∀ s : State, s.interrupt = none → s.t = false → s.j = false →
    (memPermitted s.platform s.pc.toNat 4 .fetch s.privilege = false ∨
      memAborts s.platform s.pc.toNat 4 .fetch = true) →
    step s = .next (takeException .prefetchAbort s.tick)) ∧
  (∀ (s : State) (k : ExceptionKind), s.interrupt = some k → step s = .next (takeException k s.tick))

/-- A step runs the decoded instruction (40_condition_execution.md section 2): where no unmasked interrupt is asserted, the
processor is in ARM state, the fetch is let through, no byte of the word was written by the program and the four bytes at
the PC are those of a word that decodes to `i`, the step is `exec i`, on the state whose interrupt lines for this step are
consumed. -/
def Obligations.StepRunsDecoded : Prop :=
  ∀ (s : State) (b0 b1 b2 b3 : Byte) (i : Instr),
    (s.linesNow.fiq = false ∨ s.f = true) → (s.linesNow.irq = false ∨ s.i = true) → s.t = false → s.j = false →
    memPermitted s.platform s.pc.toNat 4 .fetch s.privilege = true → memAborts s.platform s.pc.toNat 4 .fetch = false →
    (∀ k < 4, s.pc.toNat + k ∉ s.written) →
    s.mem.read s.pc.toNat = some b0 → s.mem.read (s.pc.toNat + 1) = some b1 →
    s.mem.read (s.pc.toNat + 2) = some b2 → s.mem.read (s.pc.toNat + 3) = some b3 →
    decodeBytes b0 b1 b2 b3 = .instr i →
    step s = exec i s.tick

/-- Interrupts (60_exceptions.md sections 2 and 3): an FIQ is taken iff its line is asserted and F is clear, before an IRQ,
which is taken iff its line is asserted and I is clear and no FIQ is taken; R14 of the new mode is the address of the next
instruction plus 4. Where neither line is asserted and unmasked no interrupt is taken: the step is the fetch and execution
of the state with the levels of the lines at this step consumed. The levels of the lines are the model's list
(notes/assumptions/7.md). -/
def Obligations.InterruptsAreTaken : Prop :=
  ∀ s : State,
    (s.linesNow.fiq = true → s.f = false →
      ∃ t, step s = .next t ∧ t.mode = .fiq ∧ t.pc = vectorBase s.platform + 0x1C ∧ t.regOf .fiq 14 = s.pc + 4 ∧
        t.spsr.get 4 = s.cpsr ∧ t.i = true ∧ t.f = true ∧ t.a = true ∧ t.mem = s.mem ∧ t.lines = s.lines.tail) ∧
    (s.linesNow.irq = true → s.i = false → (s.linesNow.fiq = false ∨ s.f = true) →
      ∃ t, step s = .next t ∧ t.mode = .irq ∧ t.pc = vectorBase s.platform + 0x18 ∧ t.regOf .irq 14 = s.pc + 4 ∧
        t.spsr.get 3 = s.cpsr ∧ t.i = true ∧ t.f = s.f ∧ t.a = true ∧ t.mem = s.mem ∧ t.lines = s.lines.tail) ∧
    ((s.linesNow.fiq = false ∨ s.f = true) → (s.linesNow.irq = false ∨ s.i = true) →
      s.interrupt = none ∧ step s = fetchAndExecute { s with lines := s.lines.tail })

/-- Where a step runs no instruction, no unmasked interrupt being asserted. Words that are no instruction, with their
condition passing or in the unconditional space: UNDEFINED words take the Undefined Instruction exception, UNPREDICTABLE
ones fault (30_encoding.md section 6; 40_condition_execution.md section 2). Thumb and Jazelle state are outside the
modelled instruction set, and so is a fetch of a byte the program has written (the spec's decision D8,
notes/assumptions/21.md). Bytes without a value fault (notes/assumptions/5.md); that a written byte is refused first is the
model's order (notes/assumptions/32.md). -/
def Obligations.StepsWithoutInstruction : Prop :=
  ∀ s : State, s.interrupt = none →
    (∀ w : Word, s.t = false → s.j = false → s.fetches w →
      (field w 28 4 = 0b1111 ∨ conditionPassed (Cond.ofCode (field w 28 4)) s = true) →
      (decodeWord w = .undefined → step s = .next (takeException .undefinedInstruction s.tick)) ∧
      (decodeWord w = .unpredictable → step s = .fault .unpredictableEncoding)) ∧
    (s.t = true → step s = .refused .thumbState) ∧
    (s.t = false → s.j = true → step s = .refused .jazelleState) ∧
    (s.t = false → s.j = false → s.fetchAllowed →
      ((∃ k < 4, s.pc.toNat + k ∈ s.written) → step s = .refused .fetchWritten) ∧
      ((∀ k < 4, s.pc.toNat + k ∉ s.written) → (∃ k < 4, s.mem.read (s.pc.toNat + k) = none) →
        step s = .fault .unwrittenMemory))

/-! ### What every step keeps -/

/-- Every step keeps the invariant of a legal state: canonical memory, reserved status bits 0, a legal mode, an aligned
PC. -/
def Obligations.StepKeepsLegalState : Prop :=
  ∀ s t : State, s.Inv → step s = .next t → t.Inv

/-- The state after reset is legal. -/
def Obligations.ResetIsLegal : Prop := State.reset.Inv

/-- What the spec gives for reset (70_reset_and_hazards.md section 1): the reset vector, Supervisor mode, ARM state,
interrupts and imprecise aborts masked, E = `EE`, the reserved bits 0, the monitor open. The last clause, that no byte of
memory has a value, is the model's choice (notes/assumptions/5.md): the spec leaves memory unknown. The values of the
registers are not stated: they are the model's (notes/assumptions/1.md to 3.md). -/
def Obligations.ResetValues : Prop :=
  let s := State.reset
  s.pc = vectorBase s.platform ∧ s.mode = .svc ∧ s.t = false ∧ s.j = false ∧ s.i = true ∧ s.f = true ∧ s.a = true ∧
    s.e = s.platform.ee ∧ s.cpsr &&& unallocMask = 0 ∧ s.monitor = none ∧ ∀ a, s.mem.read a = none

/-- User mode is left, and its interrupt masks and mode bits are changed, only by taking an exception
(10_state.md section 4). -/
def Obligations.UserModeIsLeftByExceptionsOnly : Prop :=
  ∀ (i : Instr) (s t : State), modeBits s.cpsr = 0b10000 → exec i s = .next t →
    t.cpsr &&& 0x000001DF = s.cpsr &&& 0x000001DF ∨ Raised s t

/-- Q is sticky (10_state.md section 4): an instruction that is neither an MSR nor a return from an exception never
clears it. An exception keeps it too. -/
def Obligations.QIsSticky : Prop :=
  ∀ (i : Instr) (s t : State), exec i s = .next t → s.q = true →
    (psrBits i &&& 0x08000000 = 0 ∨ psrBits i = 0x08000000) → t.q = true

/-- Frame of the status register: outside the bits listed for the instruction (`psrBits`) it is unchanged, unless the
instruction takes an exception. -/
def Obligations.StatusRegisterFrame : Prop :=
  ∀ (i : Instr) (s t : State), exec i s = .next t →
    t.cpsr &&& ~~~psrBits i = s.cpsr &&& ~~~psrBits i ∨ Raised s t

/-- Frame of the registers: every cell that is not a destination of the instruction (`destCells`: its Rd, or pair, or
list; the written-back base; R14 of BL and BLX; R13 of SRS) is unchanged, but for R14 of the mode an exception enters. -/
def Obligations.RegisterFrame : Prop :=
  ∀ (i : Instr) (s t : State) (k : Fin 30), exec i s = .next t → k ∉ destCells i s →
    t.gpr.get k = s.gpr.get k ∨ ∃ e u, t = takeException e u ∧ k = cell e.mode 14

/-- Frame of memory. Of an instruction that stores nothing every address reads as before and counts as written or not as
before; of one that stores, every address outside the bytes from the address stored to (`storeSpan`, computed as the
meanings compute it) reads as before. -/
def Obligations.MemoryFrame : Prop :=
  ∀ (i : Instr) (s t : State), exec i s = .next t →
    (storeSpan i s = none → (∀ a, t.mem.read a = s.mem.read a) ∧ t.written = s.written) ∧
    ∀ a n, storeSpan i s = some (a, n) → ∀ x, (x < a ∨ a + n ≤ x) →
      t.mem.read x = s.mem.read x ∧ (x ∈ t.written ↔ x ∈ s.written)

/-- Frame of the rest: the SPSRs change only by an MSR with R = 1 and by exceptions, the monitor only by LDREX and STREX, a
coprocessor only by an instruction offered to it, and no instruction changes the platform or the interrupt lines. The PC
goes to the next word, and there is one, unless the instruction is a branch or writes R15 (`WritesPc`) or takes an
exception (10_state.md section 3). -/
def Obligations.SpecialStateFrame : Prop :=
  ∀ (i : Instr) (s t : State), exec i s = .next t →
    (t.spsr = s.spsr ∨ (∃ c m r b, i = .msrImm c true m r b) ∨ (∃ c m r, i = .msrReg c true m r) ∨
      ∃ k u, t = takeException k u) ∧
    (t.monitor = s.monitor ∨ (∃ c rn rd, i = .ldrex c rn rd) ∨ ∃ c rn rd rm, i = .strex c rn rd rm) ∧
    (∀ k : Fin 16, (∀ cp, cpOf i = some cp → cpIndex cp ≠ k) → t.coprocs.get k = s.coprocs.get k) ∧
    t.platform = s.platform ∧ t.lines = s.lines ∧
    (WritesPc i ∨ Raised s t ∨ (s.pc.toNat + 4 < 2 ^ 32 ∧ t.pc = s.pc + 4))

/-! ### Registers, status registers, memory -/

/-- The register banks (10_state.md section 2): R0 to R7 and, outside FIQ mode, R8 to R12 are common to all modes; R13 and
R14 are separate in each mode but common to User and System. Two register names are one register exactly when these say
so. R15 reads as the address of the instruction plus 8. -/
def Obligations.RegisterBanks : Prop :=
  (∀ (m k : Mode) (r q : Reg), r ≠ 15 → q ≠ 15 →
    (cell m r = cell k q ↔
      r = q ∧ (r.toNat < 8 ∨ (r.toNat < 13 ∧ (m = .fiq ↔ k = .fiq)) ∨ m = k ∨
        (m = .usr ∧ k = .sys) ∨ (m = .sys ∧ k = .usr)))) ∧
  (∀ (s : State) (m : Mode) (r : Reg) (v : Word), r ≠ 15 → (s.setRegOf m r v).regOf m r = v) ∧
  (∀ s : State, s.reg 15 = s.pc + 8)

/-- Data byte order (20_memory.md section 2): in little-endian order byte k of a value is at address a + k, in big-endian
order at a + (n - 1 - k); what was stored is read back under the same E; a byte elsewhere is untouched. -/
def Obligations.StoredBytesReadBack : Prop :=
  ∀ (m : Memory) (a n : Nat) (e : Bool) (v : Word), n ≤ 4 →
    (∀ k < n, (m.writeBytes a (disassemble e n v)).read (a + k) =
      some (v.extractLsb' (8 * (if e then n - 1 - k else k)) 8)) ∧
    ((m.writeBytes a (disassemble e n v)).readBytes a n).map (assemble e) = some (v &&& (BitVec.ofNat 32 (2 ^ (8 * n) - 1))) ∧
    ∀ x, (x < a ∨ a + n ≤ x) → (m.writeBytes a (disassemble e n v)).read x = m.read x

/-- The table of the exceptions, and exception entry (60_exceptions.md sections 2 and 4), for each of the six exceptions a
step can take: the mode entered, its R14 (relative to the address of the instruction) and SPSR, the PC, T, J, I, F, A and
E; every other bit of the CPSR, every other register and SPSR, memory and the monitor are unchanged. -/
def Obligations.ExceptionEntry : Prop :=
  ∀ (k : ExceptionKind) (s : State),
    let t := takeException k s
    let row : Mode × Word × Word := match k with
      | .undefinedInstruction => (.und, 0x04, 4)
      | .softwareInterrupt => (.svc, 0x08, 4)
      | .prefetchAbort => (.abt, 0x0C, 4)
      | .dataAbort => (.abt, 0x10, 8)
      | .irq => (.irq, 0x18, 4)
      | .fiq => (.fiq, 0x1C, 4)
    t.mode = row.1 ∧ t.pc = (if s.platform.highVectors then 0xFFFF0000 else 0) + row.2.1 ∧
    t.regOf row.1 14 = s.pc + row.2.2 ∧ row.1.spsrIndex.map t.spsr.get = some s.cpsr ∧
    t.t = false ∧ t.j = false ∧ t.i = true ∧ t.f = (s.f || k == .fiq) ∧
    t.a = (s.a || (k != .undefinedInstruction && k != .softwareInterrupt)) ∧ t.e = s.platform.ee ∧
    t.cpsr &&& 0xFEFFFC00 = s.cpsr &&& 0xFEFFFC00 ∧
    (∀ j : Fin 30, j ≠ cell row.1 14 → t.gpr.get j = s.gpr.get j) ∧
    (∀ j : Fin 5, row.1.spsrIndex ≠ some j → t.spsr.get j = s.spsr.get j) ∧
    t.mem = s.mem ∧ t.written = s.written ∧ t.monitor = s.monitor ∧ t.coprocs = s.coprocs

/-! ### Data processing (42_data_processing.md) -/

/-- The shifter operands without a register shift (section 2): the value and the shifter carry-out, in integers. A register
shifted by an immediate: LSR and ASR by 0 stand for 32, ROR by 0 for RRX. An immediate: the byte rotated right by twice the
rotation; the carry-out is C for a rotation of 0, otherwise bit 31 of the value. -/
def Obligations.ShiftByImmediate : Prop :=
  ∀ (c : Bool) (rm : Word) (imm5 : BitVec 5), let n := imm5.toNat
    (n = 0 →
      shiftImm c rm .lsl imm5 = ⟨rm, c⟩ ∧ shiftImm c rm .lsr imm5 = ⟨0, rm.getLsbD 31⟩ ∧
      (shiftImm c rm .asr imm5).value.toInt = (if rm.toInt < 0 then -1 else 0) ∧
      (shiftImm c rm .asr imm5).carry = rm.getLsbD 31 ∧
      (shiftImm c rm .ror imm5).value.toNat = (if c then 2 ^ 31 else 0) + rm.toNat / 2 ∧
      (shiftImm c rm .ror imm5).carry = rm.getLsbD 0) ∧
    (n ≠ 0 →
      (shiftImm c rm .lsl imm5).value.toNat = rm.toNat * 2 ^ n % 2 ^ 32 ∧
      (shiftImm c rm .lsl imm5).carry = rm.getLsbD (32 - n) ∧
      (shiftImm c rm .lsr imm5).value.toNat = rm.toNat / 2 ^ n ∧ (shiftImm c rm .lsr imm5).carry = rm.getLsbD (n - 1) ∧
      (shiftImm c rm .asr imm5).value.toInt = rm.toInt / 2 ^ n ∧ (shiftImm c rm .asr imm5).carry = rm.getLsbD (n - 1) ∧
      (∀ i < 32, (shiftImm c rm .ror imm5).value.getLsbD i = rm.getLsbD ((i + n) % 32)) ∧
      (shiftImm c rm .ror imm5).carry = rm.getLsbD (n - 1)) ∧
    ∀ (rot : BitVec 4) (imm8 : BitVec 8),
      let v := if rot = 0 then imm8.toNat
        else imm8.toNat / 2 ^ (2 * rot.toNat) + imm8.toNat * 2 ^ (32 - 2 * rot.toNat) % 2 ^ 32
      (shifterImm c rot imm8).value.toNat = v ∧
      (shifterImm c rot imm8).carry = if rot = 0 then c else decide (2 ^ 31 ≤ v)

/-- A register shifted by the bottom byte `n` of a register (section 2): by 0 the value and C are unchanged, by 32 and more
nothing of the register is left but its sign; a rotation counts modulo 32. -/
def Obligations.ShiftByRegister : Prop :=
  ∀ (c : Bool) (rm : Word) (n : Nat), n < 256 →
    (n = 0 → ∀ ty, shiftReg c rm ty n = ⟨rm, c⟩) ∧
    (n ≠ 0 →
      (shiftReg c rm .lsl n).value.toNat = rm.toNat * 2 ^ n % 2 ^ 32 ∧
      (shiftReg c rm .lsl n).carry = decide (rm.toNat * 2 ^ n / 2 ^ 32 % 2 = 1) ∧
      (shiftReg c rm .lsr n).value.toNat = rm.toNat / 2 ^ n ∧ (shiftReg c rm .lsr n).carry = rm.getLsbD (n - 1) ∧
      (shiftReg c rm .asr n).value.toInt = rm.toInt / 2 ^ n ∧
      (shiftReg c rm .asr n).carry = rm.getLsbD (min (n - 1) 31) ∧
      (∀ i < 32, (shiftReg c rm .ror n).value.getLsbD i = rm.getLsbD ((i + n) % 32)) ∧
      (shiftReg c rm .ror n).carry = rm.getLsbD ((n + 31) % 32))

/-- AND, EOR, ORR, BIC, MOV and MVN, with each second operand, to a register other than R15 (sections 3 and 4): the result;
with S the flags N and Z of it, C the shifter carry-out, V unchanged. Nothing else changes. -/
def Obligations.LogicalResults : Prop :=
  ∀ (o : Operand2) (c : Cond) (sf : Bool) (rn rd : Reg) (s : State), Runs c s → rd ≠ 15 →
    let so := o.value s
    let done := fun v => Host.Outcome.next (s.after rd v (withFlags s.cpsr sf v so.carry s.v))
    (o.allows [rn, rd] = true →
      exec (dpForm .and o c sf rn rd) s = done (s.reg rn &&& so.value) ∧
      exec (dpForm .eor o c sf rn rd) s = done (s.reg rn ^^^ so.value) ∧
      exec (dpForm .orr o c sf rn rd) s = done (s.reg rn ||| so.value) ∧
      exec (dpForm .bic o c sf rn rd) s = done (s.reg rn &&& ~~~so.value)) ∧
    (o.allows [rd] = true →
      exec (dpForm .mov o c sf rn rd) s = done so.value ∧ exec (dpForm .mvn o c sf rn rd) s = done (~~~so.value))

/-- ADD, ADC, SUB, SBC, RSB and RSC, with each second operand, to a register other than R15 (sections 3 and 4): the result
modulo 2^32; with S the flags N and Z of it, C the carry of the addition or NOT the borrow of the subtraction, V that the
exact signed result does not fit. Nothing else changes. -/
def Obligations.ArithmeticResults : Prop :=
  ∀ (o : Operand2) (c : Cond) (sf : Bool) (rn rd : Reg) (s : State), Runs c s → rd ≠ 15 → o.allows [rn, rd] = true →
    let a := s.reg rn
    let b := (o.value s).value
    let k : Word := if s.c then 1 else 0
    let l : Word := if s.c then 0 else 1
    let done := fun (v : Word) (cf : Bool) (exact : Int) =>
      Host.Outcome.next (s.after rd v (withFlags s.cpsr sf v cf (decide (v.toInt ≠ exact))))
    exec (dpForm .add o c sf rn rd) s = done (a + b) (decide (2 ^ 32 ≤ a.toNat + b.toNat)) (a.toInt + b.toInt) ∧
    exec (dpForm .adc o c sf rn rd) s =
      done (a + b + k) (decide (2 ^ 32 ≤ a.toNat + b.toNat + k.toNat)) (a.toInt + b.toInt + k.toInt) ∧
    exec (dpForm .sub o c sf rn rd) s = done (a - b) (decide (b.toNat ≤ a.toNat)) (a.toInt - b.toInt) ∧
    exec (dpForm .sbc o c sf rn rd) s =
      done (a - b - l) (decide (b.toNat + l.toNat ≤ a.toNat)) (a.toInt - b.toInt - l.toInt) ∧
    exec (dpForm .rsb o c sf rn rd) s = done (b - a) (decide (a.toNat ≤ b.toNat)) (b.toInt - a.toInt) ∧
    exec (dpForm .rsc o c sf rn rd) s =
      done (b - a - l) (decide (a.toNat + l.toNat ≤ b.toNat)) (b.toInt - a.toInt - l.toInt)

/-- TST, TEQ, CMP and CMN, with each second operand (sections 3 and 4): the flags of AND, EOR, SUB and ADD, and no
register. Nothing else changes. -/
def Obligations.CompareResults : Prop :=
  ∀ (o : Operand2) (c : Cond) (sf : Bool) (rn rd : Reg) (s : State), Runs c s → o.allows [rn] = true →
    let a := s.reg rn
    let so := o.value s
    let b := so.value
    let done := fun (v : Word) (cf vf : Bool) =>
      Host.Outcome.next { s with cpsr := withNzcv s.cpsr (v.getLsbD 31) (v == 0) cf vf, pc := s.pc + 4 }
    exec (dpForm .tst o c sf rn rd) s = done (a &&& b) so.carry s.v ∧
    exec (dpForm .teq o c sf rn rd) s = done (a ^^^ b) so.carry s.v ∧
    exec (dpForm .cmp o c sf rn rd) s =
      done (a - b) (decide (b.toNat ≤ a.toNat)) (decide ((a - b).toInt ≠ a.toInt - b.toInt)) ∧
    exec (dpForm .cmn o c sf rn rd) s =
      done (a + b) (decide (2 ^ 32 ≤ a.toNat + b.toNat)) (decide ((a + b).toInt ≠ a.toInt + b.toInt))

/-- Writing R15 with a data-processing instruction without S is a branch to the result with bits[1:0] cleared
(41_branch.md R187): no link, no change of state, no flag. The result `v` is the one the same instruction puts in R0. -/
def Obligations.DataProcessingToPcBranches : Prop :=
  ∀ (op : DpOp) (o : Operand2) (c : Cond) (rn : Reg) (s t : State), op ∉ [.tst, .teq, .cmp, .cmn] → Runs c s →
    (∀ rs ty rm, o ≠ .reg rs ty rm) → exec (dpForm op o c false rn 0) s = .next t →
    exec (dpForm op o c false rn 15) s = .next { s with pc := t.reg 0 &&& 0xFFFFFFFC }

/-- A data-processing instruction with S and R15 as its destination returns from an exception (42_data_processing.md
section 3, 60_exceptions.md section 5): the CPSR takes the SPSR of the mode, the PC the result aligned for the restored T;
in a mode without an SPSR it faults, and where the SPSR holds no legal mode (10_state.md section 2). -/
def Obligations.DataProcessingReturns : Prop :=
  ∀ (op : DpOp) (o : Operand2) (c : Cond) (rn : Reg) (s t : State), op ∉ [.tst, .teq, .cmp, .cmn] → Runs c s →
    (∀ rs ty rm, o ≠ .reg rs ty rm) → exec (dpForm op o c false rn 0) s = .next t →
    (∀ psr, s.spsr? = some psr → legalMode psr = true →
      exec (dpForm op o c true rn 15) s =
        .next { s with cpsr := psr, pc := t.reg 0 &&& (if psr.getLsbD 5 then 0xFFFFFFFE else 0xFFFFFFFC) }) ∧
    (∀ psr, s.spsr? = some psr → legalMode psr = false → exec (dpForm op o c true rn 15) s = .fault .illegalMode) ∧
    (s.spsr? = none → exec (dpForm op o c true rn 15) s = .fault .noSpsr)

/-! ### Multiplies (43_multiply.md) -/

/-- MUL and MLA (section 2): the low 32 bits; with S the flags N and Z of them, C and V unchanged. -/
def Obligations.MultiplyResults : Prop :=
  ∀ (c : Cond) (sf : Bool) (rd rn rs rm : Reg) (s : State), Runs c s → rd ≠ 15 → rs ≠ 15 → rm ≠ 15 →
    let done := fun v => Host.Outcome.next (s.after rd v (withFlags s.cpsr sf v s.c s.v))
    exec (.mul c sf rd rs rm) s = done (s.reg rm * s.reg rs) ∧
    (rn ≠ 15 → exec (.mla c sf rd rn rs rm) s = done (s.reg rm * s.reg rs + s.reg rn))

/-- UMULL, UMLAL, SMULL, SMLAL and UMAAL (section 3): the 64-bit result in the pair, exact but for the wrap of the
accumulating forms modulo 2^64 (UMAAL cannot wrap); with S the flags N and Z of all 64 bits, C and V unchanged. -/
def Obligations.LongMultiplyResults : Prop :=
  ∀ (c : Cond) (sf : Bool) (hi lo rs rm : Reg) (s : State), Runs c s → hi ≠ 15 → lo ≠ 15 → rs ≠ 15 → rm ≠ 15 → hi ≠ lo →
    let a := s.reg rm
    let b := s.reg rs
    let acc : BitVec 64 := s.reg hi ++ s.reg lo
    let done := fun (p : BitVec 64) (f : Bool) => Host.Outcome.next (s.afterPair hi lo p
      (if f then withNzcv s.cpsr (p.getLsbD 63) (p == 0) s.c s.v else s.cpsr))
    (∃ p : BitVec 64, p.toNat = a.toNat * b.toNat ∧ exec (.umull c sf hi lo rs rm) s = done p sf) ∧
    (∃ p : BitVec 64, p.toNat = (a.toNat * b.toNat + acc.toNat) % 2 ^ 64 ∧ exec (.umlal c sf hi lo rs rm) s = done p sf) ∧
    (∃ p : BitVec 64, p.toInt = a.toInt * b.toInt ∧ exec (.smull c sf hi lo rs rm) s = done p sf) ∧
    (∃ p : BitVec 64, p.toInt = (a.toInt * b.toInt + acc.toInt).bmod (2 ^ 64) ∧
      exec (.smlal c sf hi lo rs rm) s = done p sf) ∧
    (∃ p : BitVec 64, p.toNat = a.toNat * b.toNat + (s.reg lo).toNat + (s.reg hi).toNat ∧
      exec (.umaal c hi lo rs rm) s = done p false)

/-- SMUL<x><y>, SMULW<y>, SMLA<x><y>, SMLAW<y> and SMLAL<x><y> (section 4): the exact product of the signed halves, of the
48-bit product the top 32 bits; the accumulating 32-bit forms wrap and set Q when the exact sum does not fit. -/
def Obligations.HalfwordMultiplyResults : Prop :=
  ∀ (c : Cond) (rd rn rs rm : Reg) (x y : Bool) (s : State), Runs c s → rd ≠ 15 → rs ≠ 15 → rm ≠ 15 →
    let h := fun (v : Word) (top : Bool) => ((if top then v >>> 16 else v).setWidth 16 : BitVec 16).toInt
    let xy := h (s.reg rm) x * h (s.reg rs) y
    let wy := (s.reg rm).toInt * h (s.reg rs) y / 2 ^ 16
    let acc := (s.reg rn).toInt
    let fits := fun (r : Int) => decide (-2 ^ 31 ≤ r ∧ r < 2 ^ 31)
    (∃ v : Word, v.toInt = xy ∧ exec (.smulXY c rd rs y x rm) s = .next (s.after rd v s.cpsr)) ∧
    (∃ v : Word, v.toInt = wy ∧ exec (.smulwY c rd rs y rm) s = .next (s.after rd v s.cpsr)) ∧
    (rn ≠ 15 →
      exec (.smlaXY c rd rn rs y x rm) s =
        .next (s.after rd (BitVec.ofInt 32 (xy + acc)) (stickyQ s.cpsr (!fits (xy + acc)))) ∧
      exec (.smlawY c rd rn rs y rm) s =
        .next (s.after rd (BitVec.ofInt 32 (wy + acc)) (stickyQ s.cpsr (!fits (wy + acc)))) ∧
      (rn ≠ rd → exec (.smlalXY c rd rn rs y x rm) s =
        .next (s.afterPair rd rn (BitVec.ofInt 64 (xy + (s.reg rd ++ s.reg rn : BitVec 64).toInt)) s.cpsr)))

/-- SMUAD, SMUSD, SMLAD, SMLSD, SMLALD and SMLSLD (section 6), the halves of Rs exchanged where X: bottom product plus or
minus top product; the 32-bit sums set Q when they do not fit, SMUSD always fits, the 64-bit forms wrap. -/
def Obligations.DualMultiplyResults : Prop :=
  ∀ (c : Cond) (rd rn rs rm : Reg) (x : Bool) (s : State), Runs c s → rd ≠ 15 → rs ≠ 15 → rm ≠ 15 →
    let h := fun (v : Word) (top : Bool) => ((if top then v >>> 16 else v).setWidth 16 : BitVec 16).toInt
    let bottom := h (s.reg rm) false * h (s.reg rs) x
    let top := h (s.reg rm) true * h (s.reg rs) (!x)
    let acc := (s.reg rn).toInt
    let fits := fun (r : Int) => decide (-2 ^ 31 ≤ r ∧ r < 2 ^ 31)
    let sum := fun (r : Int) => Host.Outcome.next (s.after rd (BitVec.ofInt 32 r) (stickyQ s.cpsr (!fits r)))
    let long := fun (r : Int) => Host.Outcome.next
      (s.afterPair rd rn (BitVec.ofInt 64 ((s.reg rd ++ s.reg rn : BitVec 64).toInt + r)) s.cpsr)
    exec (.smuad c rd rs x rm) s = sum (bottom + top) ∧
    (∃ v : Word, v.toInt = bottom - top ∧ exec (.smusd c rd rs x rm) s = .next (s.after rd v s.cpsr)) ∧
    (rn ≠ 15 →
      exec (.smlad c rd rn rs x rm) s = sum (bottom + top + acc) ∧
      exec (.smlsd c rd rn rs x rm) s = sum (bottom - top + acc) ∧
      (rn ≠ rd → exec (.smlald c rd rn rs x rm) s = long (bottom + top) ∧
        exec (.smlsld c rd rn rs x rm) s = long (bottom - top)))

/-- SMMUL, SMMLA and SMMLS (section 5): the top word of the 64-bit value, truncated or, with R, rounded; no flag. -/
def Obligations.TopWordMultiplyResults : Prop :=
  ∀ (c : Cond) (rd rn rs rm : Reg) (r : Bool) (s : State), Runs c s → rd ≠ 15 → rs ≠ 15 → rm ≠ 15 →
    let product := (s.reg rm).toInt * (s.reg rs).toInt
    let acc := (s.reg rn).toInt * 2 ^ 32
    let done := fun (p : Int) => Host.Outcome.next
      (s.after rd (BitVec.ofInt 32 ((p + (if r then 2 ^ 31 else 0)) / 2 ^ 32)) s.cpsr)
    exec (.smmul c rd rs r rm) s = done product ∧
    (rn ≠ 15 → exec (.smmla c rd rn rs r rm) s = done (acc + product) ∧
      exec (.smmls c rd rn rs r rm) s = done (acc - product))

/-! ### Parallel additions and subtractions (44_parallel_add_sub.md) -/

/-- The 36 instructions (section 1). Each lane is the exact sum or difference of its two parts, read as signed by the S, Q
and SH forms, then wrapped (S, U), saturated (Q, UQ) or halved (SH, UH). S and U write GE, two bits a halfword lane, one a
byte lane: an unsigned sum carries, any other lane is not negative. Nothing else changes. -/
def Obligations.ParallelResults : Prop :=
  ∀ (p : ParPrefix) (c : Cond) (rn rd rm : Reg) (s : State), Runs c s → rn ≠ 15 → rd ≠ 15 → rm ≠ 15 →
    let part := fun (v : Word) (lo w : Nat) =>
      if p.signed then (v.extractLsb' lo w).toInt else ((v.extractLsb' lo w).toNat : Int)
    let lane := fun (w : Nat) (r : Int) => (match p with
      | .s => BitVec.ofInt w r
      | .u => BitVec.ofInt w r
      | .q => BitVec.ofInt w (max (-2 ^ (w - 1)) (min r (2 ^ (w - 1) - 1)))
      | .uq => BitVec.ofInt w (max 0 (min r (2 ^ w - 1)))
      | .sh => BitVec.ofInt w (r / 2)
      | .uh => BitVec.ofInt w (r / 2) : BitVec w)
    let ge := fun (add : Bool) (w : Nat) (r : Int) => decide (if p = .u ∧ add = true then 2 ^ w ≤ r else 0 ≤ r)
    let done := fun (v : Word) (g : BitVec 4) => Host.Outcome.next
      (s.after rd v (if p = .s ∨ p = .u then withGe s.cpsr g else s.cpsr))
    let a := s.reg rn
    let b := s.reg rm
    let pair := fun (g : Bool) => BitVec.ofBool g ++ BitVec.ofBool g
    let halves := fun (t u : Int) (addT addU : Bool) =>
      done (lane 16 t ++ lane 16 u) (pair (ge addT 16 t) ++ pair (ge addU 16 u))
    let sum := fun (i j w : Nat) => part a i w + part b j w
    let dif := fun (i j w : Nat) => part a i w - part b j w
    let bytes := fun (f : Nat → Int) (add : Bool) =>
      done (lane 8 (f 24) ++ lane 8 (f 16) ++ lane 8 (f 8) ++ lane 8 (f 0))
        (BitVec.ofBool (ge add 8 (f 24)) ++ BitVec.ofBool (ge add 8 (f 16)) ++ BitVec.ofBool (ge add 8 (f 8)) ++
          BitVec.ofBool (ge add 8 (f 0)))
    exec (parForm p .add16 c rn rd rm) s = halves (sum 16 16 16) (sum 0 0 16) true true ∧
    exec (parForm p .addsubx c rn rd rm) s = halves (sum 16 0 16) (dif 0 16 16) true false ∧
    exec (parForm p .subaddx c rn rd rm) s = halves (dif 16 0 16) (sum 0 16 16) false true ∧
    exec (parForm p .sub16 c rn rd rm) s = halves (dif 16 16 16) (dif 0 0 16) false false ∧
    exec (parForm p .add8 c rn rd rm) s = bytes (fun i => sum i i 8) true ∧
    exec (parForm p .sub8 c rn rd rm) s = bytes (fun i => dif i i 8) false

/-! ### Extend and miscellaneous (45_extend_misc.md) -/

/-- The twelve extend instructions (section 1): the register rotated right by 0, 8, 16 or 24, a byte, a halfword or bytes 0
and 2 of it extended, and for the A forms added to Rn, the 16 forms by halfwords without a carry. No flag changes. -/
def Obligations.ExtendResults : Prop :=
  ∀ (c : Cond) (rn rd rm : Reg) (rot : BitVec 2) (s : State), Runs c s → rd ≠ 15 → rm ≠ 15 →
    let v := (s.reg rm).rotateRight (8 * rot.toNat)
    let b0 : BitVec 8 := v.setWidth 8
    let b2 : BitVec 8 := (v >>> 16).setWidth 8
    let h : BitVec 16 := v.setWidth 16
    let n := s.reg rn
    let top : BitVec 16 := (n >>> 16).setWidth 16
    let low : BitVec 16 := n.setWidth 16
    let done := fun v => Host.Outcome.next (s.after rd v s.cpsr)
    exec (.sxtb16 c rd rot rm) s = done (b2.signExtend 16 ++ b0.signExtend 16) ∧
    exec (.sxtb c rd rot rm) s = done (b0.signExtend 32) ∧ exec (.sxth c rd rot rm) s = done (h.signExtend 32) ∧
    exec (.uxtb16 c rd rot rm) s = done (b2.setWidth 16 ++ b0.setWidth 16) ∧
    exec (.uxtb c rd rot rm) s = done (b0.setWidth 32) ∧ exec (.uxth c rd rot rm) s = done (h.setWidth 32) ∧
    (rn ≠ 15 →
      exec (.sxtab16 c rn rd rot rm) s = done ((top + b2.signExtend 16) ++ (low + b0.signExtend 16)) ∧
      exec (.sxtab c rn rd rot rm) s = done (n + b0.signExtend 32) ∧
      exec (.sxtah c rn rd rot rm) s = done (n + h.signExtend 32) ∧
      exec (.uxtab16 c rn rd rot rm) s = done ((top + b2.setWidth 16) ++ (low + b0.setWidth 16)) ∧
      exec (.uxtab c rn rd rot rm) s = done (n + b0.setWidth 32) ∧
      exec (.uxtah c rn rd rot rm) s = done (n + h.setWidth 32))

/-- CLZ, USAD8, USADA8, PKHBT, PKHTB, REV, REV16, REVSH and SEL (sections 2 and 3). CLZ gives the number of zeros above the
highest one, 32 for zero; the shift of PKHTB is 32 where its field is 0. No flag changes. -/
def Obligations.MiscellaneousResults : Prop :=
  ∀ (c : Cond) (rn rd rs rm : Reg) (imm5 : BitVec 5) (s : State), Runs c s → rd ≠ 15 → rm ≠ 15 →
    let a := s.reg rn
    let m := s.reg rm
    let byte := fun (v : Word) (i : Nat) => v.extractLsb' (8 * i) 8
    let diff := fun (i : Nat) => (((byte m i).toNat : Int) - ((byte (s.reg rs) i).toNat : Int)).natAbs
    let sad := diff 0 + diff 1 + diff 2 + diff 3
    let sh := if imm5 = 0 then 32 else imm5.toNat
    let pick := fun (i : Nat) => if s.cpsr.getLsbD (16 + i) then byte a i else byte m i
    let done := fun v => Host.Outcome.next (s.after rd v s.cpsr)
    (∃ k : Nat, k ≤ 32 ∧ m.toNat < 2 ^ (32 - k) ∧ (k < 32 → 2 ^ (31 - k) ≤ m.toNat) ∧
      exec (.clz c rd rm) s = done (BitVec.ofNat 32 k)) ∧
    exec (.rev c rd rm) s = done (byte m 0 ++ byte m 1 ++ byte m 2 ++ byte m 3) ∧
    exec (.rev16 c rd rm) s = done (byte m 2 ++ byte m 3 ++ byte m 0 ++ byte m 1) ∧
    exec (.revsh c rd rm) s = done ((byte m 0 ++ byte m 1).signExtend 32) ∧
    (rs ≠ 15 → exec (.usad8 c rd rs rm) s = done (BitVec.ofNat 32 sad) ∧
      (rn ≠ 15 → exec (.usada8 c rd rn rs rm) s = done (a + BitVec.ofNat 32 sad))) ∧
    (rn ≠ 15 →
      exec (.pkhbt c rn rd imm5 rm) s = done (((m <<< imm5.toNat) &&& 0xFFFF0000) ||| (a &&& 0x0000FFFF)) ∧
      exec (.pkhtb c rn rd imm5 rm) s = done ((a &&& 0xFFFF0000) ||| (m.sshiftRight sh &&& 0x0000FFFF)) ∧
      exec (.sel c rn rd rm) s = done (pick 3 ++ pick 2 ++ pick 1 ++ pick 0))

/-- SSAT, USAT, SSAT16 and USAT16 (section 4): the operand, or each halfword, limited to the signed or unsigned range of
the width; Q is set when something was limited, and never cleared. -/
def Obligations.SaturateResults : Prop :=
  ∀ (c : Cond) (rd rm : Reg) (sat imm5 : BitVec 5) (sat4 : BitVec 4) (sh : Bool) (s : State), Runs c s → rd ≠ 15 → rm ≠ 15 →
    let m := s.reg rm
    let v := (if sh then m.sshiftRight (if imm5 = 0 then 32 else imm5.toNat) else m <<< imm5.toNat).toInt
    let top := (m.extractLsb' 16 16).toInt
    let low := (m.extractLsb' 0 16).toInt
    let clamp := fun (lo hi r : Int) => max lo (min r hi)
    let one := fun (lo hi : Int) => Host.Outcome.next
      (s.after rd (BitVec.ofInt 32 (clamp lo hi v)) (stickyQ s.cpsr (clamp lo hi v != v)))
    let two := fun (lo hi : Int) => Host.Outcome.next
      (s.after rd (BitVec.ofInt 16 (clamp lo hi top) ++ BitVec.ofInt 16 (clamp lo hi low))
        (stickyQ s.cpsr (clamp lo hi top != top || clamp lo hi low != low)))
    exec (.ssat c sat rd imm5 sh rm) s = one (-2 ^ sat.toNat) (2 ^ sat.toNat - 1) ∧
    exec (.usat c sat rd imm5 sh rm) s = one 0 (2 ^ sat.toNat - 1) ∧
    exec (.ssat16 c sat4 rd rm) s = two (-2 ^ sat4.toNat) (2 ^ sat4.toNat - 1) ∧
    exec (.usat16 c sat4 rd rm) s = two 0 (2 ^ sat4.toNat - 1)

/-- QADD, QSUB, QDADD and QDSUB (section 5): Rm plus or minus Rn, or the saturated double of Rn, saturated to 32 bits; Q is
set when either saturates. -/
def Obligations.SaturatingAddResults : Prop :=
  ∀ (c : Cond) (rn rd rm : Reg) (s : State), Runs c s → rn ≠ 15 → rd ≠ 15 → rm ≠ 15 →
    let clamp := fun (r : Int) => max (-2 ^ 31) (min r (2 ^ 31 - 1))
    let m := (s.reg rm).toInt
    let n := (s.reg rn).toInt
    let d := clamp (2 * n)
    let done := fun (r : Int) (q : Bool) => Host.Outcome.next
      (s.after rd (BitVec.ofInt 32 (clamp r)) (stickyQ s.cpsr (q || clamp r != r)))
    exec (.qadd c rn rd rm) s = done (m + n) false ∧ exec (.qsub c rn rd rm) s = done (m - n) false ∧
    exec (.qdadd c rn rd rm) s = done (m + d) (d != 2 * n) ∧ exec (.qdsub c rn rd rm) s = done (m - d) (d != 2 * n)

/-- What the spec calls UNPREDICTABLE in the use of registers faults: R15 in a field where it is not allowed (10_state.md
section 2; `noPcFields`; of LDRD and STRD the offset register and the written-back base), a long multiply whose two
destinations are the same (43_multiply.md section 1), a STREX or SWP with equal registers, a load or store that would write
its base back to a register it transfers and an LDRD whose offset register is one it loads (47_load_store.md sections 2 and
4); and of the PC its advance past the last word (10_state.md section 3), shown for the data-processing instructions, SETEND
and PLD. Which of several such uses gives its name to the fault is the model's (notes/assumptions/27.md). -/
def Obligations.ForbiddenRegistersFault : Prop :=
  ∀ (c : Cond) (s : State), conditionPassed c s = true →
    (∀ i : Instr, (∀ c', condOf i = some c' → conditionPassed c' s = true) → (15 : Reg) ∈ noPcFields i →
      exec i s = .fault .pcOperand) ∧
    (∀ (sf x y : Bool) (d rs rm : Reg), d ≠ 15 → rs ≠ 15 → rm ≠ 15 →
      ∀ i ∈ [Instr.umull c sf d d rs rm, .umlal c sf d d rs rm, .smull c sf d d rs rm, .smlal c sf d d rs rm,
        .umaal c d d rs rm, .smlalXY c d d rs y x rm, .smlald c d d rs x rm, .smlsld c d d rs x rm],
      exec i s = .fault .sameRegister) ∧
    (∀ d m : Reg, d ≠ 15 → m ≠ 15 →
      ∀ i ∈ [Instr.strex c d d m, .strex c m d d, .swp c d d m, .swp c d m d, .swpb c d d m, .swpb c d m d],
      exec i s = .fault .sameRegister) ∧
    (∀ (k : Transfer) (o : Offset) (im : IndexMode) (u : Bool) (d : Reg), d ≠ 15 → (∀ i t, o ≠ .reg i t 15) →
      writesBack (k.index im) = true → exec (k.form o c im u d d) s = .fault .writebackBase) ∧
    (∀ (im : IndexMode) (u : Bool) (rn rd rm : Reg) (imm8 : BitVec 8), rd.getLsbD 0 = false → rd ≠ 14 →
      let imms := [Instr.ldrdImm c im u rn rd imm8, .strdImm c im u rn rd imm8]
      let regs := [Instr.ldrdReg c im u rn rd rm, .strdReg c im u rn rd rm]
      (writesBack im = true → rn = 15 → ∀ i ∈ imms ++ regs, exec i s = .fault .pcOperand) ∧
      (rm = 15 → ∀ i ∈ regs, exec i s = .fault .pcOperand) ∧
      (writesBack im = true → (rn = rd ∨ rn = rd + 1) →
        (∀ i ∈ imms, exec i s = .fault .writebackBase) ∧ (rm ≠ 15 → ∀ i ∈ regs, exec i s = .fault .writebackBase)) ∧
      ((rm = rd ∨ rm = rd + 1) → (writesBack im = true → rn ≠ 15 ∧ rn ≠ rd ∧ rn ≠ rd + 1) →
        exec (.ldrdReg c im u rn rd rm) s = .fault .sameRegister)) ∧
    (2 ^ 32 ≤ s.pc.toNat + 4 →
      (∀ (op : DpOp) (o : Operand2) (sf : Bool) (rn rd : Reg), rd ≠ 15 → o.allows [rn, rd] = true →
        exec (dpForm op o c sf rn rd) s = .fault .pcWrap) ∧
      ∀ (u e : Bool) (rn : Reg) (imm12 : BitVec 12),
        exec (.setend e) s = .fault .pcWrap ∧ exec (.pldImm u rn imm12) s = .fault .pcWrap)

/-! ### Status registers (46_status_register.md) -/

/-- MRS (section 2): Rd takes the CPSR, or the SPSR of the mode, and faults in a mode without one. -/
def Obligations.MrsResults : Prop :=
  ∀ (c : Cond) (rd : Reg) (s : State), Runs c s → rd ≠ 15 →
    exec (.mrs c false rd) s = .next (s.after rd s.cpsr s.cpsr) ∧
    (∀ psr, s.spsr? = some psr → exec (.mrs c true rd) s = .next (s.after rd psr s.cpsr)) ∧
    (s.spsr? = none → exec (.mrs c true rd) s = .fault .noSpsr)

/-- MSR, of an immediate or a register (section 2). To the CPSR: in User mode only the flags, Q, GE and E under the mask
take the operand's bits, in a privileged mode also A, I, F and the mode, which must be legal; T and J never. To the SPSR:
the allocated bits under the mask. An operand with a reserved bit faults, one with T or J set too where the CPSR is written
in a privileged mode, and so does the SPSR of a mode without one. That the operand is checked under every mask is the
model's reading (notes/assumptions/24.md). -/
def Obligations.MsrResults : Prop :=
  ∀ (c : Cond) (r : Bool) (mask rot : BitVec 4) (imm8 : BitVec 8) (rm : Reg) (s : State), Runs c s → rm ≠ 15 →
    ∀ p ∈ [(Instr.msrImm c r mask rot imm8, (imm8.setWidth 32 : Word).rotateRight (2 * rot.toNat)),
      (Instr.msrReg c r mask rm, s.reg rm)],
    let v := p.2
    let field := fun (k : Nat) => if mask.getLsbD k then (0xFF : Word) <<< (8 * k) else 0
    let bytes := field 0 ||| field 1 ||| field 2 ||| field 3
    let written := fun (old allowed : Word) => (old &&& ~~~(bytes &&& allowed)) ||| (v &&& (bytes &&& allowed))
    let all := written s.cpsr 0xF80F03DF
    (v &&& 0x06F0FC00 ≠ 0 → exec p.1 s = .fault .reservedPsrBit) ∧
    (v &&& 0x06F0FC00 = 0 → r = false → modeBits s.cpsr = 0b10000 →
      exec p.1 s = .next { s with cpsr := written s.cpsr 0xF80F0200, pc := s.pc + 4 }) ∧
    (v &&& 0x06F0FC00 = 0 → r = false → s.privileged = true →
      (v &&& 0x01000020 ≠ 0 → exec p.1 s = .fault .stateBits) ∧
      (v &&& 0x01000020 = 0 → legalMode all = true → exec p.1 s = .next { s with cpsr := all, pc := s.pc + 4 }) ∧
      (v &&& 0x01000020 = 0 → legalMode all = false → exec p.1 s = .fault .illegalMode)) ∧
    (v &&& 0x06F0FC00 = 0 → r = true →
      (∀ k : Fin 5, s.mode.spsrIndex = some k → exec p.1 s = .next { s with
        spsr := s.spsr.set k (written (s.spsr.get k) 0xF90F03FF)
        pc := s.pc + 4 }) ∧
      (s.mode.spsrIndex = none → exec p.1 s = .fault .noSpsr))

/-- CPS and SETEND (section 2). CPS has no effect in User mode; in a privileged mode it sets or clears the masks it names
and enters the mode it names; its inconsistent forms fault in every mode, and so does a mode that is none: in User mode
that is the model's reading (notes/assumptions/30.md). SETEND writes E in every mode. -/
def Obligations.CpsAndSetendResults : Prop :=
  ∀ (imod : BitVec 2) (mm a i f e : Bool) (mode : BitVec 5) (s : State), s.pc.toNat + 4 < 2 ^ 32 →
    let bad := imod = 1 ∨ (imod = 0 ∧ (mm = false ∨ a = true ∨ i = true ∨ f = true)) ∨
      (2 ≤ imod.toNat ∧ a = false ∧ i = false ∧ f = false) ∨ (mm = false ∧ mode ≠ 0)
    let on := imod = 3
    let named := fun (b : Bool) (k : Nat) => if 2 ≤ imod.toNat ∧ b = true then (1 : Word) <<< k else 0
    let bits := named a 8 ||| named i 7 ||| named f 6
    let masks := if on then s.cpsr ||| bits else s.cpsr &&& ~~~bits
    (bad → exec (.cps imod mm a i f mode) s = .fault .badCps) ∧
    (¬bad → mm = true → modeOfNumber mode = none → exec (.cps imod mm a i f mode) s = .fault .illegalMode) ∧
    (¬bad → (mm = true → (modeOfNumber mode).isSome = true) →
      (s.privileged = false → exec (.cps imod mm a i f mode) s = .next s.afterNothing) ∧
      (s.privileged = true → exec (.cps imod mm a i f mode) s = .next { s with
        cpsr := if mm then (masks &&& 0xFFFFFFE0) ||| mode.setWidth 32 else masks
        pc := s.pc + 4 })) ∧
    exec (.setend e) s = .next { s with
      cpsr := if e then s.cpsr ||| 0x200 else s.cpsr &&& ~~~0x200
      pc := s.pc + 4 }

/-! ### Branches (41_branch.md) -/

/-- B, BL and BLX of an address (section 2): the target is the address of the branch plus 8 plus four times the signed
offset, modulo 2^32 (10_state.md section 3). A B whose target lies past an end of the address space faults; that BL and BLX
go on there is the model's choice (notes/assumptions/16.md). BL and BLX leave the address of the next instruction in R14;
BLX adds 2 where H and sets T. -/
def Obligations.BranchResults : Prop :=
  ∀ (c : Cond) (h : Bool) (imm24 : BitVec 24) (s : State),
    let exact := (s.pc.toNat : Int) + 8 + 4 * imm24.toInt
    let target := BitVec.ofInt 32 exact
    let linked := s.gpr.set (cell s.mode 14) (s.pc + 4)
    (conditionPassed c s = true →
      (0 ≤ exact → exact < 2 ^ 32 → exec (.b c imm24) s = .next { s with pc := target }) ∧
      (exact < 0 ∨ 2 ^ 32 ≤ exact → exec (.b c imm24) s = .fault .pcWrap) ∧
      exec (.bl c imm24) s = .next { s with gpr := linked, pc := target }) ∧
    exec (.blx1 h imm24) s = .next { s with
      gpr := linked
      cpsr := s.cpsr ||| 0x20
      pc := target + (if h then 2 else 0) }

/-- BX, BLX and BXJ of a register (section 2; 10_state.md section 3): the target is read before R14 is written; bit 0 goes
to T and is cleared in the PC; bits[1:0] = 0b10 faults. BX may name R15, which is in ARM state. BXJ is BX where there is no
Jazelle hardware, and is refused where there is. -/
def Obligations.BranchExchangeResults : Prop :=
  ∀ (c : Cond) (rm : Reg) (s : State), conditionPassed c s = true →
    let v := s.reg rm
    let psr := if v.getLsbD 0 then s.cpsr ||| 0x20 else s.cpsr &&& ~~~0x20
    let target := v &&& 0xFFFFFFFE
    (v &&& 3 ≠ 2 →
      exec (.bx c rm) s = .next { s with cpsr := psr, pc := target } ∧
      (rm ≠ 15 →
        exec (.blx2 c rm) s = .next { s with
          gpr := s.gpr.set (cell s.mode 14) (s.pc + 4)
          cpsr := psr
          pc := target } ∧
        (s.platform.jazellePresent = false → exec (.bxj c rm) s = .next { s with cpsr := psr, pc := target }))) ∧
    (v &&& 3 = 2 →
      exec (.bx c rm) s = .fault .interworkAlign ∧
      (rm ≠ 15 → exec (.blx2 c rm) s = .fault .interworkAlign ∧
        (s.platform.jazellePresent = false → exec (.bxj c rm) s = .fault .interworkAlign))) ∧
    (rm ≠ 15 → s.platform.jazellePresent = true → exec (.bxj c rm) s = .refused .jazelleEntry)

/-! ### Loads and stores (47_load_store.md) -/

/-- The loads of a word, byte or halfword to a register other than R15, in every addressing form (sections 2 to 4): the
value read, extended, in Rd; the base register written back where the form does that. LDRT and LDRBT read with User
privilege. Nothing else changes. -/
def Obligations.LoadResults : Prop :=
  ∀ (k : Transfer) (o : Offset) (c : Cond) (im : IndexMode) (u : Bool) (rn rd : Reg) (w : Word) (s : State),
    k.stores = false → Runs c s → k.allows o im rn rd = true → rd ≠ 15 →
    s.readable (k.priv s) k.bytes (k.address o im u rn s) w →
    exec (k.form o c im u rn rd) s = .next { s with
      gpr := (s.based (writesBack (k.index im)) rn (k.base o u rn s)).set (cell s.mode rd) (k.extend w)
      pc := s.pc + 4 }

/-- LDR to R15 is an interworking branch (section 3; 10_state.md section 3): bit 0 of the word read goes to T, the base
register is written back; bits[1:0] = 0b10 faults. -/
def Obligations.LoadToPcBranches : Prop :=
  ∀ (o : Offset) (c : Cond) (im : IndexMode) (u : Bool) (rn : Reg) (w : Word) (s : State),
    conditionPassed c s = true → Transfer.ldr.allows o im rn 15 = true →
    s.readable s.privilege 4 (Transfer.ldr.address o im u rn s) w →
    (w &&& 3 ≠ 2 → exec (Transfer.ldr.form o c im u rn 15) s = .next { s with
      gpr := s.based (writesBack im) rn (Transfer.ldr.base o u rn s)
      cpsr := if w.getLsbD 0 then s.cpsr ||| 0x20 else s.cpsr &&& ~~~0x20
      pc := w &&& 0xFFFFFFFE }) ∧
    (w &&& 3 = 2 → exec (Transfer.ldr.form o c im u rn 15) s = .fault .interworkAlign)

/-- The stores of a word, byte or halfword, in every addressing form (sections 2 to 4): the low bytes of Rd stored in the
byte order of E, the base register written back where the form does that. R15 is stored as the address of the instruction
plus 8 or 12, as the platform has it. STRT and STRBT write with User privilege. Nothing else changes. -/
def Obligations.StoreResults : Prop :=
  ∀ (k : Transfer) (o : Offset) (c : Cond) (im : IndexMode) (u : Bool) (rn rd : Reg) (s : State),
    k.stores = true → Runs c s → k.allows o im rn rd = true →
    s.writable (k.priv s) k.bytes (k.address o im u rn s) →
    exec (k.form o c im u rn rd) s = .next { s.withStored k.bytes (k.address o im u rn s)
        (if rd = 15 then s.pc + (if s.platform.storePc12 then 12 else 8) else s.reg rd) with
      gpr := s.based (writesBack (k.index im)) rn (k.base o u rn s)
      pc := s.pc + 4 }

/-- Accesses that are not done. An access the memory system aborts or forbids, or whose address is not a multiple of its
size, takes the Data Abort (60_exceptions.md section 4): a single load or store, LDREX, STREX, SWP, SWPB and RFE with
nothing else changed, no register, no byte of memory; of LDM, STM, LDRD, STRD, SRS, LDC and STC the base register keeps its
value and what the accesses before had loaded or stored is unknown (`LoadAborted`, `StoreAborted`). An access or a run of
accesses that crosses the top of the address space faults (20_memory.md section 5). That a misaligned access aborts is the
outcome 20_memory.md section 3 names where a concrete one is wanted, chosen in notes/assumptions/12.md; that the crossing
comes before an abort, what the later accesses leave, and that STREX checks its address before the monitor are the model's
choices (notes/assumptions/14.md, 13.md, 29.md), and so is that an aborted swap has stored nothing
(notes/assumptions/26.md). -/
def Obligations.AbortedTransfers : Prop :=
  ∀ (c : Cond) (am : BlockMode) (im : IndexMode) (u w : Bool) (rn rd rm : Reg) (s : State), conditionPassed c s = true →
    let aborted := Host.Outcome.next (takeException .dataAbort s)
    let one := fun (v : Privilege) (kind : AccessKind) (n : Nat) (a : Word) (i : Instr) =>
      (2 ^ 32 < a.toNat + n → exec i s = .fault .addressWrap) ∧
      (a.toNat + n ≤ 2 ^ 32 → ¬s.reachable v kind n a → exec i s = aborted)
    let block := fun (kind : AccessKind) (a : Word) (n : Nat) (i : Instr) (after : Nat → Out → Prop) =>
      (2 ^ 32 < a.toNat + 4 * n → exec i s = .fault .addressWrap) ∧
      ∀ d, s.abortsAt kind a n d → after d (exec i s)
    (∀ (k : Transfer) (o : Offset), k.allows o im rn rd = true →
      one (k.priv s) (if k.stores then .write else .read) k.bytes (k.address o im u rn s) (k.form o c im u rn rd)) ∧
    (rn ≠ 15 → rd ≠ 15 →
      let a := s.reg rn
      let erg := s.platform.ergMinus3.val + 3
      one s.privilege .read 4 a (.ldrex c rn rd) ∧
      (rm ≠ 15 → rd ≠ rn → rd ≠ rm →
        (2 ^ 32 < a.toNat + 4 → exec (.strex c rn rd rm) s = .fault .addressWrap) ∧
        (a.toNat + 4 ≤ 2 ^ 32 → a.toNat % 4 ≠ 0 → exec (.strex c rn rd rm) s = aborted) ∧
        (a.toNat + 4 ≤ 2 ^ 32 → s.monitor = some (BitVec.ofNat 32 (a.toNat / 2 ^ erg * 2 ^ erg)) →
          ¬s.reachable s.privilege .write 4 a → exec (.strex c rn rd rm) s = aborted)) ∧
      (rm ≠ 15 → rn ≠ rm → rn ≠ rd → ∀ p ∈ [(Instr.swp c rn rd rm, 4), (Instr.swpb c rn rd rm, 1)],
        one s.privilege .read p.2 a p.1 ∧
        ∀ v, s.readable s.privilege p.2 a v → ¬s.reachable s.privilege .write p.2 a → exec p.1 s = aborted)) ∧
    (∀ list : BitVec 16, rn ≠ 15 → list ≠ 0 →
      let n := (regList list).length
      let a := blockStart am (s.reg rn) n
      ((w = true → list.getLsbD rn.toNat = false) →
        block .read a n (.ldm1 c am w rn list) (fun d => LoadAborted s s.mode rn ((regList list).take d))) ∧
      block .write a n (.stm1 c am w rn list) (fun d => StoreAborted s a d) ∧
      (s.mode ≠ .usr → s.mode ≠ .sys → block .write a n (.stm2 c am rn list) (fun d => StoreAborted s a d))) ∧
    (∀ list : BitVec 15, rn ≠ 15 → s.mode ≠ .usr → s.mode ≠ .sys →
      let low := regList (list.setWidth 16)
      let all := regList (1#1 ++ list)
      (list ≠ 0 → block .read (blockStart am (s.reg rn) low.length) low.length (.ldm2 c am rn list)
        (fun d => LoadAborted s .usr rn (low.take d))) ∧
      ((w = true → list.getLsbD rn.toNat = false) →
        block .read (blockStart am (s.reg rn) all.length) all.length (.ldm3 c am w rn list)
          (fun d => LoadAborted s s.mode rn (all.take d)))) ∧
    (∀ imm8 : BitVec 8, rd.getLsbD 0 = false → rd ≠ 14 → (writesBack im = true → rn ≠ 15 ∧ rn ≠ rd ∧ rn ≠ rd + 1) →
      let pair := fun (kind : AccessKind) (a : Word) (i : Instr) (after : Nat → Out → Prop) =>
        (a.toNat + 8 ≤ 2 ^ 32 → a.toNat % 8 ≠ 0 → exec i s = aborted) ∧
        (2 ^ 32 < a.toNat + 8 → exec i s = .fault .addressWrap) ∧
        (a.toNat % 8 = 0 → ∀ d, s.abortsAt kind a 2 d → after d (exec i s))
      let ai := accessAddress im (s.reg rn) (imm8.setWidth 32) u
      let ar := accessAddress im (s.reg rn) (s.reg rm) u
      pair .read ai (.ldrdImm c im u rn rd imm8) (fun d => LoadAborted s s.mode rn ([rd, rd + 1].take d)) ∧
      pair .write ai (.strdImm c im u rn rd imm8) (fun d => StoreAborted s ai d) ∧
      (rm ≠ 15 → pair .write ar (.strdReg c im u rn rd rm) (fun d => StoreAborted s ar d) ∧
        (rm ≠ rd → rm ≠ rd + 1 →
          pair .read ar (.ldrdReg c im u rn rd rm) (fun d => LoadAborted s s.mode rn ([rd, rd + 1].take d))))) ∧
    (rn ≠ 15 → s.privileged = true →
      block .read (blockStart am (s.reg rn) 2) 2 (.rfe am w rn) (fun _ o => o = aborted)) ∧
    (∀ (mode : BitVec 5) (m : Mode) (psr : Word), s.spsr? = some psr → modeOfNumber mode = some m →
      let a := blockStart am (s.regOf m 13) 2
      block .write a 2 (.srs am w mode) (fun d => StoreAborted s a d)) ∧
    (∀ (p n : Bool) (crd cp : CpField) (imm8 : BitVec 8) (r : CpReply), (w = true → rn ≠ 15) →
      let off : Word := BitVec.ofNat 32 (4 * imm8.toNat)
      let a := if p then (if u then s.reg rn + off else s.reg rn - off) else s.reg rn
      (∀ i ∈ [Instr.ldc c p u n w rn crd cp imm8, .ldc2 p u n w rn crd cp imm8], s.cpReply cp (encode i) = some r →
        block .read a (r.ldcMore + 1) i (fun _ o => o = aborted)) ∧
      (∀ i ∈ [Instr.stc c p u n w rn crd cp imm8, .stc2 p u n w rn crd cp imm8], s.cpReply cp (encode i) = some r →
        block .write a (r.more.length + 1) i (fun d => StoreAborted s a d)))

/-- LDRD and STRD (section 4): two words between consecutive registers and consecutive addresses, the lower register with
the lower address whatever E; the base register written back where the form does that. An odd Rd is UNDEFINED, before
the other checks of a word that decodes (the model's choice, notes/assumptions/27.md); a misaligned address takes the Data
Abort (notes/assumptions/12.md) where the pair does not cross the top of the address space. -/
def Obligations.DoublewordResults : Prop :=
  ∀ (c : Cond) (im : IndexMode) (u : Bool) (rn rd rm : Reg) (imm8 : BitVec 8) (w0 w1 : Word) (s : State), Runs c s →
    let wb := writesBack im
    let free := wb = false ∨ (rn ≠ 15 ∧ rn ≠ rd ∧ rn ≠ rd + 1)
    let address := fun (off : Word) => accessAddress im (s.reg rn) off u
    let base := fun (off : Word) => s.based wb rn (if u then s.reg rn + off else s.reg rn - off)
    (rd.getLsbD 0 = true →
      ∀ i ∈ [Instr.ldrdImm c im u rn rd imm8, .ldrdReg c im u rn rd rm, .strdImm c im u rn rd imm8,
        .strdReg c im u rn rd rm], exec i s = .next (takeException .undefinedInstruction s)) ∧
    (rd = 14 → ∀ i ∈ [Instr.ldrdImm c im u rn rd imm8, .ldrdReg c im u rn rd rm, .strdImm c im u rn rd imm8,
        .strdReg c im u rn rd rm], exec i s = .fault .doublewordR14) ∧
    (rd.getLsbD 0 = false → rd ≠ 14 → free →
      (∀ p ∈ [(Instr.ldrdImm c im u rn rd imm8, (imm8.setWidth 32 : Word), true),
          (Instr.ldrdReg c im u rn rd rm, s.reg rm, rm != 15 && rm != rd && rm != rd + 1)], p.2.2 = true →
        ((address p.2.1).toNat % 8 = 0 → s.readableBlock (address p.2.1) [w0, w1] →
          exec p.1 s = .next { s with
            gpr := ((base p.2.1).set (cell s.mode rd) w0).set (cell s.mode (rd + 1)) w1
            pc := s.pc + 4 }) ∧
        ((address p.2.1).toNat + 8 ≤ 2 ^ 32 → (address p.2.1).toNat % 8 ≠ 0 →
          exec p.1 s = .next (takeException .dataAbort s))) ∧
      (∀ p ∈ [(Instr.strdImm c im u rn rd imm8, (imm8.setWidth 32 : Word), true),
          (Instr.strdReg c im u rn rd rm, s.reg rm, rm != 15)], p.2.2 = true →
        ((address p.2.1).toNat % 8 = 0 → s.writableBlock (address p.2.1) 2 →
          exec p.1 s = .next { s.withStoredWords (address p.2.1) [s.reg rd, s.reg (rd + 1)] with
            gpr := base p.2.1
            pc := s.pc + 4 }) ∧
        ((address p.2.1).toNat + 8 ≤ 2 ^ 32 → (address p.2.1).toNat % 8 ≠ 0 →
          exec p.1 s = .next (takeException .dataAbort s))))

/-- LDREX and STREX (section 5; 10_state.md section 6): LDREX reads a word and makes the monitor exclusive for the tag of
its address; STREX stores and gives 0 where the monitor holds the tag of its address, otherwise stores nothing and gives
1; either way it opens the monitor. -/
def Obligations.ExclusiveResults : Prop :=
  ∀ (c : Cond) (rn rd rm : Reg) (w : Word) (s : State), Runs c s → rn ≠ 15 → rd ≠ 15 →
    let a := s.reg rn
    let erg := s.platform.ergMinus3.val + 3
    let tag : Word := BitVec.ofNat 32 (a.toNat / 2 ^ erg * 2 ^ erg)
    (s.readable s.privilege 4 a w → exec (.ldrex c rn rd) s = .next { s with
      gpr := s.gpr.set (cell s.mode rd) w
      monitor := some tag
      pc := s.pc + 4 }) ∧
    (rm ≠ 15 → rd ≠ rn → rd ≠ rm → a.toNat % 4 = 0 →
      (s.monitor = some tag → s.writable s.privilege 4 a →
        exec (.strex c rn rd rm) s = .next { s.withStored 4 a (s.reg rm) with
          gpr := s.gpr.set (cell s.mode rd) 0
          monitor := none
          pc := s.pc + 4 }) ∧
      (s.monitor ≠ some tag → exec (.strex c rn rd rm) s = .next { s with
        gpr := s.gpr.set (cell s.mode rd) 1
        monitor := none
        pc := s.pc + 4 }))

/-- PLD is a hint with no effect, whatever the address (section 6), and SWP and SWPB exchange a register and memory in one
step (48_load_store_multiple_semaphore.md section 4), storing the value Rm had before. -/
def Obligations.PreloadAndSwapResults : Prop :=
  ∀ (c : Cond) (u : Bool) (rn rd rm : Reg) (imm12 : BitVec 12) (imm5 : BitVec 5) (ty : ShiftType) (w : Word) (s : State),
    s.pc.toNat + 4 < 2 ^ 32 →
    exec (.pldImm u rn imm12) s = .next s.afterNothing ∧
    (rm ≠ 15 → exec (.pldReg u rn imm5 ty rm) s = .next s.afterNothing) ∧
    (conditionPassed c s = true → rn ≠ 15 → rd ≠ 15 → rm ≠ 15 → rn ≠ rm → rn ≠ rd →
      ∀ p ∈ [(Instr.swp c rn rd rm, 4), (Instr.swpb c rn rd rm, 1)],
      s.readable s.privilege p.2 (s.reg rn) w → s.writable s.privilege p.2 (s.reg rn) →
      exec p.1 s = .next { s.withStored p.2 (s.reg rn) (s.reg rm) with
        gpr := s.gpr.set (cell s.mode rd) w
        pc := s.pc + 4 })

/-! ### Load and store multiple (48_load_store_multiple_semaphore.md) -/

/-- LDM (1) (section 2): the registers of the list, rising, take the words from the start address up; the base register is
written back where W; a word loaded to R15 is an interworking branch, which faults where its bits[1:0] are 0b10. No other
register changes, nor anything else. An empty list faults, and a base register in the list where W. -/
def Obligations.LoadMultipleResults : Prop :=
  ∀ (c : Cond) (am : BlockMode) (w : Bool) (rn : Reg) (list : BitVec 16) (ws : List Word) (s : State),
    conditionPassed c s = true → rn ≠ 15 →
    (list = 0 → exec (.ldm1 c am w rn list) s = .fault .emptyList) ∧
    (w = true → list.getLsbD rn.toNat = true → exec (.ldm1 c am w rn list) s = .fault .baseInList) ∧
    (list ≠ 0 → (w = true → list.getLsbD rn.toNat = false) → ws.length = (regList list).length →
      s.readableBlock (blockStart am (s.reg rn) ws.length) ws →
      (list.getLsbD 15 = true → ws.getLastD 0 &&& 3 = 2 → exec (.ldm1 c am w rn list) s = .fault .interworkAlign) ∧
      ((if list.getLsbD 15 then ws.getLastD 0 &&& 3 ≠ 2 else s.pc.toNat + 4 < 2 ^ 32) →
      ∃ g : Vector Word 30, exec (.ldm1 c am w rn list) s = .next { s with
          gpr := g
          cpsr := if list.getLsbD 15 then
            (if (ws.getLastD 0).getLsbD 0 then s.cpsr ||| 0x20 else s.cpsr &&& ~~~0x20) else s.cpsr
          pc := if list.getLsbD 15 then ws.getLastD 0 &&& 0xFFFFFFFE else s.pc + 4 } ∧
        (∀ (j : Nat) (r : Reg) (v : Word), (regList list)[j]? = some r → ws[j]? = some v → r ≠ 15 →
          g.get (cell s.mode r) = v) ∧
        (w = true → g.get (cell s.mode rn) = blockEnd am (s.reg rn) ws.length) ∧
        ∀ k : Fin 30, (∀ r : Reg, r ≠ 15 → (list.getLsbD r.toNat = true ∨ (w = true ∧ r = rn)) → k ≠ cell s.mode r) →
          g.get k = s.gpr.get k))

/-- LDM (2) and LDM (3) (section 2). LDM (2) loads the User-mode registers and faults for an empty list and in User and
System mode; LDM (3) loads the registers of the mode and returns from the exception to the last word, and faults in a mode
without an SPSR, with a base register in the list where W, and where the SPSR holds no legal mode (10_state.md
section 2). -/
def Obligations.LoadMultiplePrivileged : Prop :=
  ∀ (c : Cond) (am : BlockMode) (w : Bool) (rn : Reg) (list : BitVec 15) (ws : List Word) (s : State),
    conditionPassed c s = true → rn ≠ 15 →
    (list = 0 → exec (.ldm2 c am rn list) s = .fault .emptyList) ∧
    (list ≠ 0 →
      (s.mode = .usr ∨ s.mode = .sys → exec (.ldm2 c am rn list) s = .fault .modeForbidden) ∧
      (s.mode ≠ .usr → s.mode ≠ .sys → ws.length = (regList (list.setWidth 16)).length → s.pc.toNat + 4 < 2 ^ 32 →
        s.readableBlock (blockStart am (s.reg rn) ws.length) ws →
        ∃ g : Vector Word 30, exec (.ldm2 c am rn list) s = .next { s with gpr := g, pc := s.pc + 4 } ∧
          (∀ (j : Nat) (r : Reg) (v : Word), (regList (list.setWidth 16))[j]? = some r → ws[j]? = some v →
            g.get (cell .usr r) = v) ∧
          ∀ k : Fin 30, (∀ r : Reg, r ≠ 15 → list.getLsbD r.toNat = true → k ≠ cell .usr r) → g.get k = s.gpr.get k)) ∧
    (s.spsr? = none → exec (.ldm3 c am w rn list) s = .fault .noSpsr) ∧
    (∀ psr, s.spsr? = some psr →
      (w = true → list.getLsbD rn.toNat = true → exec (.ldm3 c am w rn list) s = .fault .baseInList) ∧
      ((w = true → list.getLsbD rn.toNat = false) → ws.length = (regList (1#1 ++ list)).length →
        s.readableBlock (blockStart am (s.reg rn) ws.length) ws →
        (legalMode psr = false → exec (.ldm3 c am w rn list) s = .fault .illegalMode) ∧
        (legalMode psr = true →
          ∃ g : Vector Word 30, exec (.ldm3 c am w rn list) s = .next { s with
              gpr := g
              cpsr := psr
              pc := ws.getLastD 0 &&& (if psr.getLsbD 5 then 0xFFFFFFFE else 0xFFFFFFFC) } ∧
            (∀ (j : Nat) (r : Reg) (v : Word), (regList (list.setWidth 16))[j]? = some r → ws[j]? = some v →
              g.get (cell s.mode r) = v) ∧
            (w = true → g.get (cell s.mode rn) = blockEnd am (s.reg rn) ws.length) ∧
            ∀ k : Fin 30,
              (∀ r : Reg, r ≠ 15 → (list.getLsbD r.toNat = true ∨ (w = true ∧ r = rn)) → k ≠ cell s.mode r) →
              g.get k = s.gpr.get k)))

/-- STM (1) and STM (2) (section 2): the registers of the list, rising, stored from the start address up; R15 as in a
single store; the base register written back where W. STM (2) stores the User-mode registers and faults in User and System
mode; an empty list faults. Where STM (1) with W has its base register in the list and it is not the lowest, the spec gives no value for that
word: it is a free value (notes/assumptions/15.md), here `v`. -/
def Obligations.StoreMultipleResults : Prop :=
  ∀ (c : Cond) (am : BlockMode) (w : Bool) (rn : Reg) (list : BitVec 16) (s : State), Runs c s → rn ≠ 15 →
    let n := (regList list).length
    let a := blockStart am (s.reg rn) n
    let stored := fun (m : Mode) (r : Reg) => if r = 15 then s.storedPc else s.regOf m r
    (list = 0 →
      exec (.stm1 c am w rn list) s = .fault .emptyList ∧ exec (.stm2 c am rn list) s = .fault .emptyList) ∧
    (list ≠ 0 → s.writableBlock a n →
      ((w = false ∨ list.getLsbD rn.toNat = false ∨ (regList list).head? = some rn) →
        exec (.stm1 c am w rn list) s = .next { s.withStoredWords a ((regList list).map (stored s.mode)) with
          gpr := s.based w rn (blockEnd am (s.reg rn) n)
          pc := s.pc + 4 }) ∧
      (w = true → list.getLsbD rn.toNat = true → (regList list).head? ≠ some rn →
        ∃ v : Word, exec (.stm1 c am w rn list) s =
          .next { s.withStoredWords a ((regList list).map (fun r => if r = rn then v else stored s.mode r)) with
            gpr := s.based w rn (blockEnd am (s.reg rn) n)
            freeCtr := s.freeCtr + 1
            pc := s.pc + 4 }) ∧
      (s.mode ≠ .usr → s.mode ≠ .sys →
        exec (.stm2 c am rn list) s = .next { s.withStoredWords a ((regList list).map (stored .usr)) with
          pc := s.pc + 4 })) ∧
    (list ≠ 0 → (s.mode = .usr ∨ s.mode = .sys) → exec (.stm2 c am rn list) s = .fault .modeForbidden)

/-- RFE and SRS (section 3). RFE takes the PC from the lower word and the CPSR from the higher one, aligns the PC for the
new T, and faults in User mode, where that CPSR has a reserved bit (10_state.md section 4) and where it has no legal mode
(10_state.md section 2). SRS stores R14 and the SPSR of the mode on the stack of the mode it names, and faults in a mode
without an SPSR and where it names none. -/
def Obligations.ReturnStateResults : Prop :=
  ∀ (am : BlockMode) (w : Bool) (rn : Reg) (mode : BitVec 5) (m : Mode) (lr psr : Word) (s : State),
    let end8 := fun (base : Word) => if am.u then base + 8 else base - 8
    (rn ≠ 15 → s.privileged = false → exec (.rfe am w rn) s = .fault .modeForbidden) ∧
    (rn ≠ 15 → s.privileged = true → s.readableBlock (blockStart am (s.reg rn) 2) [lr, psr] →
      (psr &&& 0x06F0FC00 ≠ 0 → exec (.rfe am w rn) s = .fault .reservedPsrBit) ∧
      (psr &&& 0x06F0FC00 = 0 → legalMode psr = false → exec (.rfe am w rn) s = .fault .illegalMode) ∧
      (psr &&& 0x06F0FC00 = 0 → legalMode psr = true →
        exec (.rfe am w rn) s = .next { s with
          gpr := s.based w rn (end8 (s.reg rn))
          cpsr := psr
          pc := lr &&& (if psr.getLsbD 5 then 0xFFFFFFFE else 0xFFFFFFFC) })) ∧
    (s.spsr? = none → exec (.srs am w mode) s = .fault .noSpsr) ∧
    (s.spsr? = some psr → modeOfNumber mode = none → exec (.srs am w mode) s = .fault .illegalMode) ∧
    (s.spsr? = some psr → modeOfNumber mode = some m → s.pc.toNat + 4 < 2 ^ 32 →
      s.writableBlock (blockStart am (s.regOf m 13) 2) 2 →
      exec (.srs am w mode) s =
        .next { s.withStoredWords (blockStart am (s.regOf m 13) 2) [s.reg 14, psr] with
          gpr := if w then s.gpr.set (cell m 13) (end8 (s.regOf m 13)) else s.gpr
          pc := s.pc + 4 })

/-! ### Exceptions by instruction, coprocessors (49_exception_coprocessor.md) -/

/-- SWI takes the Software Interrupt exception, BKPT the Prefetch Abort, the architecturally Undefined instruction the
Undefined Instruction exception (section 1); the immediates matter nothing. BKPT with another condition than AL faults, and
is refused where debug hardware overrides it. -/
def Obligations.ExceptionInstructions : Prop :=
  ∀ (c : Cond) (imm24 : BitVec 24) (imm16 : BitVec 16) (s : State), conditionPassed c s = true →
    exec (.swi c imm24) s = .next (takeException .softwareInterrupt s) ∧
    exec (.undef c imm16) s = .next (takeException .undefinedInstruction s) ∧
    (s.platform.debugOverridesBkpt = false → exec (.bkpt .al imm16) s = .next (takeException .prefetchAbort s)) ∧
    (s.platform.debugOverridesBkpt = true → exec (.bkpt .al imm16) s = .refused .debugOverride) ∧
    (c ≠ .al → exec (.bkpt c imm16) s = .fault .bkptCondition)

/-- A coprocessor instruction that no coprocessor accepts takes the Undefined Instruction exception (section 2), before any
other effect: where the coprocessor is absent, or no line of its table of `Accepts` is about the instruction's word, its
state and the privilege (the tables are the model's form of the spec's oracle, notes/assumptions/11.md). That the exception
comes before the checks of R15 and of equal registers is the model's choice (notes/assumptions/28.md). -/
def Obligations.RejectedCoprocessorInstructions : Prop :=
  ∀ (i : Instr) (cp : CpField) (s : State), cpOf i = some cp → (∀ c, condOf i = some c → conditionPassed c s = true) →
    (∀ p, s.coprocs.get (cpIndex cp) = some p → ∀ a ∈ p.accepts,
      ¬(encode i &&& a.key.mask = a.key.pattern ∧ (a.key.state = none ∨ a.key.state = some p.history) ∧
        a.priv = s.privilege)) →
    exec i s = .next (takeException .undefinedInstruction s)

/-- CDP, MCR, MCRR, MRC, MRRC and their unconditional forms, accepted (sections 3 and 4): what the coprocessor is told, the
word and the registers sent; what comes back, to registers other than R15, and of an MRC to R15 the flags. R15 in another
of them faults, and so do equal registers of an MRRC. An answer and the history it rests on are the model's form of the
spec's oracle (notes/assumptions/11.md). -/
def Obligations.CoprocessorTransfers : Prop :=
  ∀ (c : Cond) (o4 : BitVec 4) (o3 p3 : BitVec 3) (crn crd crm cp : CpField) (rn rd : Reg) (r : CpReply) (s : State),
    Runs c s →
    let accepted := fun (i : Instr) => s.cpReply cp (encode i) = some r
    let told := fun (i : Instr) (ws : List Word) => s.cpDone cp (encode i) ws
    let done := fun (i : Instr) (ws : List Word) => Host.Outcome.next (told i ws).afterNothing
    (∀ i ∈ [Instr.cdp c o4 crn crd cp p3 crm, .cdp2 o4 crn crd cp p3 crm], accepted i → exec i s = done i []) ∧
    (∀ i ∈ [Instr.mcr c o3 crn rd cp p3 crm, .mcr2 o3 crn rd cp p3 crm], accepted i →
      (rd ≠ 15 → exec i s = done i [s.reg rd]) ∧ (rd = 15 → exec i s = .fault .pcOperand)) ∧
    (∀ i ∈ [Instr.mcrr c rn rd cp o4 crm, .mcrr2 rn rd cp o4 crm], accepted i →
      (rn ≠ 15 → rd ≠ 15 → exec i s = done i [s.reg rd, s.reg rn]) ∧
      (rn = 15 ∨ rd = 15 → exec i s = .fault .pcOperand)) ∧
    (∀ i ∈ [Instr.mrc c o3 crn rd cp p3 crm, .mrc2 o3 crn rd cp p3 crm], accepted i →
      (rd ≠ 15 → exec i s = .next ((told i []).after rd r.first s.cpsr)) ∧
      (rd = 15 → exec i s = .next { told i [] with
        cpsr := (s.cpsr &&& 0x0FFFFFFF) ||| (r.first &&& 0xF0000000)
        pc := s.pc + 4 })) ∧
    (∀ i ∈ [Instr.mrrc c rn rd cp o4 crm, .mrrc2 rn rd cp o4 crm], accepted i →
      (rn ≠ 15 → rd ≠ 15 → rn ≠ rd → exec i s = .next { told i [] with
        gpr := (s.gpr.set (cell s.mode rd) r.first).set (cell s.mode rn) r.second
        pc := s.pc + 4 }) ∧
      (rn = 15 ∨ rd = 15 → exec i s = .fault .pcOperand) ∧
      (rn ≠ 15 → rn = rd → exec i s = .fault .sameRegister))

/-- LDC, STC and their unconditional forms, accepted (sections 3 and 4): the words the coprocessor asks for are read and
sent to it, or the words it gives are stored, from the address the form gives; the base register is written back
where W, and faults where it is R15 then. An answer is the model's form of the spec's oracle (notes/assumptions/11.md). -/
def Obligations.CoprocessorMemory : Prop :=
  ∀ (c : Cond) (p u n w : Bool) (rn : Reg) (crd cp : CpField) (imm8 : BitVec 8) (r : CpReply) (ws : List Word) (s : State),
    Runs c s →
    let off : Word := BitVec.ofNat 32 (4 * imm8.toNat)
    let moved := if u then s.reg rn + off else s.reg rn - off
    let a := if p then moved else s.reg rn
    (∀ i ∈ [Instr.ldc c p u n w rn crd cp imm8, .ldc2 p u n w rn crd cp imm8], s.cpReply cp (encode i) = some r →
      (w = true → rn = 15 → exec i s = .fault .pcOperand) ∧
      ((w = true → rn ≠ 15) → ws.length = r.ldcMore + 1 → s.readableBlock a ws →
        exec i s = .next { s.cpDone cp (encode i) ws with
          gpr := s.based w rn moved
          pc := s.pc + 4 })) ∧
    (∀ i ∈ [Instr.stc c p u n w rn crd cp imm8, .stc2 p u n w rn crd cp imm8], s.cpReply cp (encode i) = some r →
      (w = true → rn = 15 → exec i s = .fault .pcOperand) ∧
      ((w = true → rn ≠ 15) → s.writableBlock a (r.more.length + 1) →
        exec i s = .next { (s.withStoredWords a (r.first :: r.more)).cpDone cp (encode i) [] with
          gpr := s.based w rn moved
          pc := s.pc + 4 }))

/-! ### Addresses -/

/-- The addresses the statements above name, in integers. Of a single transfer (47_load_store.md section 2) the offset, the
address for each of the forms that P and W select, and the value written back, modulo 2^32; of LDM, STM, RFE and SRS
(48_load_store_multiple_semaphore.md section 1) the start address and the written-back value of `k` words for each of IA,
IB, DA and DB, which P and U select; and the registers of a list, in rising order. -/
def Obligations.AddressArithmetic : Prop :=
  (∀ (k : Transfer) (o : Offset) (p u w : Bool) (rn : Reg) (s : State),
    let im := IndexMode.of p w
    let base := (s.reg rn).toNat
    let off := match o with
      | .imm v => if k.narrow then v.toNat % 2 ^ 8 else v.toNat
      | .reg imm5 ty rm => if k.narrow then (s.reg rm).toNat else (shiftImm s.c (s.reg rm) ty imm5).value.toNat
    let moved : Int := (if u then (base : Int) + off else (base : Int) - off) % 2 ^ 32
    let indexed := p && !k.user
    ((k.address o im u rn s).toNat : Int) = (if indexed then moved else (base : Int)) ∧
    ((k.base o u rn s).toNat : Int) = moved ∧ writesBack (k.index im) = (!indexed || w)) ∧
  (∀ (im : IndexMode) (base off : Word) (u : Bool), ((accessAddress im base off u).toNat : Int) =
    if im = .post then (base.toNat : Int)
    else (if u then (base.toNat : Int) + off.toNat else (base.toNat : Int) - off.toNat) % 2 ^ 32) ∧
  (∀ (base : Word) (k : Nat), let b : Int := base.toNat
    ((blockStart (BlockMode.of false true) base k).toNat : Int) = b ∧
    ((blockStart (BlockMode.of true true) base k).toNat : Int) = (b + 4) % 2 ^ 32 ∧
    ((blockStart (BlockMode.of false false) base k).toNat : Int) = (b - 4 * k + 4) % 2 ^ 32 ∧
    ((blockStart (BlockMode.of true false) base k).toNat : Int) = (b - 4 * k) % 2 ^ 32 ∧
    ∀ p u : Bool, ((blockEnd (BlockMode.of p u) base k).toNat : Int) = (if u then b + 4 * k else b - 4 * k) % 2 ^ 32) ∧
  ∀ list : BitVec 16, (regList list).Pairwise (fun r q => r.toNat < q.toNat) ∧
    ∀ r : Reg, r ∈ regList list ↔ list.getLsbD r.toNat = true
end

