-- ==== Sys2Proof/Laws/Encoding.lean ====
section
/-! SUPPORT. What putting a field in a word and reading a field of a word do to each other. With these no proof about the
decoder or the encoder looks at single bits. -/
namespace Sys2Proof.Laws

/-- A field read from where it was put. -/
theorem field_place_same (lo : Nat) {len : Nat} (v : BitVec len) (h : lo + len ≤ 32) : field (place lo v) lo len = v := by
  apply BitVec.eq_of_getLsbD_eq
  intro i hi
  have h1 : lo + i < 32 := by omega
  simp [field, place, h1, hi]

/-- A field read from elsewhere than where one was put. -/
theorem field_place_disjoint (l : Nat) {k : Nat} (v : BitVec k) (lo len : Nat) (h : l + k ≤ lo ∨ lo + len ≤ l) :
    field (place l v) lo len = 0 := by
  apply BitVec.eq_of_getLsbD_eq
  intro i hi
  simp only [field, place, BitVec.getLsbD_extractLsb', BitVec.getLsbD_shiftLeft, BitVec.getLsbD_setWidth]
  rcases h with h | h
  · simp [BitVec.getLsbD_of_ge v (lo + i - l) (by omega)]
  · simp; omega

/-- Reading a field of two words put together. -/
theorem field_or (a b : Word) (lo len : Nat) : field (a ||| b) lo len = field a lo len ||| field b lo len := by
  simp [field, BitVec.extractLsb'_or]

/-- Reading a bit of two words put together. -/
theorem bitAt_or (a b : Word) (i : Nat) : bitAt (a ||| b) i = (bitAt a i || bitAt b i) := by simp [bitAt]

/-- A bit read from where it was put. -/
theorem bitAt_place_same (i : Nat) (b : Bool) (h : i < 32) : bitAt (place i (BitVec.ofBool b)) i = b := by
  simp [bitAt, place, h]

/-- A bit read from elsewhere than where a field was put. -/
theorem bitAt_place_disjoint (l : Nat) {k : Nat} (v : BitVec k) (i : Nat) (h : l + k ≤ i ∨ i < l) :
    bitAt (place l v) i = false := by
  simp only [bitAt, place, BitVec.getLsbD_shiftLeft, BitVec.getLsbD_setWidth]
  rcases h with h | h
  · simp [BitVec.getLsbD_of_ge v (i - l) (by omega)]
  · simp [h]

/-- A field outside a mask is nothing under it. -/
theorem place_and_zero (l : Nat) {k : Nat} (v : BitVec k) (m : Word) (h : place l (BitVec.allOnes k) &&& m = 0) :
    place l v &&& m = 0 := by
  apply BitVec.eq_of_getLsbD_eq
  intro i _
  have hb := congrArg (fun x => BitVec.getLsbD x i) h
  simp only [place, BitVec.getLsbD_and, BitVec.getLsbD_shiftLeft, BitVec.getLsbD_setWidth, BitVec.getLsbD_allOnes] at hb ⊢
  by_cases hk : i - l < k
  · simp [hk] at hb ⊢
    intro h1 h2 h3 _
    exact hb h1 h2 h3
  · simp [BitVec.getLsbD_of_ge v (i - l) (by omega)]

/-- A mask over two words put together. -/
theorem or_and_mask (a b m : Word) : (a ||| b) &&& m = (a &&& m) ||| (b &&& m) := by
  apply BitVec.eq_of_getLsbD_eq
  intro i _
  simp [Bool.and_or_distrib_right]

/-- A set flag as a literal. -/
theorem place_one (l : Nat) : place l 1#1 = 1#32 <<< l := rfl

/-- A clear flag as a literal. -/
theorem place_zero (l : Nat) : place l 0#1 = 0#32 := by simp [place]

/-- A field of a literal. -/
theorem field_lit (n lo len : Nat) : field (BitVec.ofNat 32 n) lo len = (BitVec.ofNat 32 n).extractLsb' lo len := rfl

/-- A bit of a literal. -/
theorem bitAt_lit (n i : Nat) : bitAt (BitVec.ofNat 32 n) i = (BitVec.ofNat 32 n).getLsbD i := rfl

/-- No condition is 0b1111 (40_condition_execution.md R163). -/
theorem cond_place_ne (c : Cond) : place 28 c.code &&& 0xF0000000#32 ≠ 0xF0000000#32 := by cases c <;> decide

/-- Under its own mask a field keeps all its bits: those 16 up. -/
theorem place16_ne (r : Reg) (h : r ≠ 15) : place 16 r &&& 0x000F0000#32 ≠ 0x000F0000#32 := by
  revert r; decide

/-- Under its own mask a field keeps all its bits: those 12 up. -/
theorem place12_ne (r : Reg) (h : r ≠ 15) : place 12 r &&& 0x0000F000#32 ≠ 0x0000F000#32 := by
  revert r; decide

/-- A condition is read back from its code. -/
theorem cond_ofCode_code (c : Cond) : Cond.ofCode c.code = c := by cases c <;> rfl

/-- A shift is read back from its code. -/
theorem shift_ofCode_code (t : ShiftType) : ShiftType.ofCode t.code = t := by cases t <;> rfl

/-- An index mode is read back from its bits. -/
theorem indexMode_of (m : IndexMode) : IndexMode.of m.p m.w = m := by cases m <;> rfl

/-- A block mode is read back from its bits. -/
theorem blockMode_of (m : BlockMode) : BlockMode.of m.p m.u = m := by cases m <;> rfl

/-- The two nibbles of a split byte. -/
theorem join8 (v : BitVec 8) : v.extractLsb' 4 4 ++ v.extractLsb' 0 4 = v := by
  revert v; decide

/-- The two parts of a split halfword. -/
theorem join16 (v : BitVec 16) : v.extractLsb' 4 12 ++ v.extractLsb' 0 4 = v := by
  apply BitVec.eq_of_getLsbD_eq
  intro i hi
  simp only [BitVec.getLsbD_append, BitVec.getLsbD_extractLsb']
  by_cases h : i < 4
  · simp [h]
  · have h1 : i - 4 < 12 := by omega
    have h2 : 4 + (i - 4) = i := by omega
    simp [h, h1, h2]

end Sys2Proof.Laws
end

