-- ==== Sys2Proof/Laws/Decode.lean ====
section
/-! SUPPORT. Laws of the decoder: when two rows of the opcode table can have no word in common, that this holds of any two
rows of the table, and what `decodeWord` answers for a word that only one row accepts. -/
namespace Sys2Proof.Laws

/-- Every word of a row is in an excluded class: the class fixes only bits that the row fixes, and to the same values. -/
def excludedBy (e : Word × Word) (b : Row) : Bool := e.1 &&& b.mask == e.1 && b.pattern &&& e.1 == e.2

/-- Two rows that visibly have no word in common: they fix a bit to different values, or one excludes the other. -/
def clash (a b : Row) : Bool :=
  (a.pattern ^^^ b.pattern) &&& (a.mask &&& b.mask) != 0 || a.exclude.any (excludedBy · b) ||
    b.exclude.any (excludedBy · a)

/-- Each row clashes with every later one. -/
def clashesAll : List Row → Bool
  | [] => true
  | r :: rs => rs.all (clash r) && clashesAll rs

set_option maxRecDepth 100000 in
/-- The rows of the opcode table clash pairwise. -/
theorem table_clashes : clashesAll table = true := by decide +kernel

/-- A word of a row is in every class that holds all words of the row. -/
theorem in_excluded {e : Word × Word} {b : Row} {w : Word} (h : excludedBy e b = true) (hw : w &&& b.mask = b.pattern) :
    w &&& e.1 = e.2 := by
  simp only [excludedBy, Bool.and_eq_true, beq_iff_eq] at h
  rw [← h.2, ← hw, BitVec.and_assoc, BitVec.and_comm b.mask, h.1]

/-- Rows that clash have no word in common. -/
theorem clash_sound {a b : Row} {w : Word} (h : clash a b = true) (ha : a.accepts w = true) (hb : b.accepts w = true) :
    False := by
  simp only [Row.accepts, Bool.and_eq_true, beq_iff_eq, List.all_eq_true, bne_iff_ne, ne_eq] at ha hb
  simp only [clash, Bool.or_eq_true, bne_iff_ne, ne_eq, List.any_eq_true] at h
  rcases h with (h | ⟨e, he, h⟩) | ⟨e, he, h⟩
  · apply h
    rw [← ha.1, ← hb.1]
    apply BitVec.eq_of_getLsbD_eq
    intro i _
    rw [show ((0 : Word).getLsbD i) = false from BitVec.getLsbD_zero]
    simp only [BitVec.getLsbD_and, BitVec.getLsbD_xor]
    cases w.getLsbD i <;> cases a.mask.getLsbD i <;> cases b.mask.getLsbD i <;> rfl
  · exact ha.2 e he (in_excluded h hb.1)
  · exact hb.2 e he (in_excluded h ha.1)

/-- Of a list whose rows clash pairwise, the rows at two places have no word in common. -/
theorem clashesAll_sound : ∀ {l : List Row}, clashesAll l = true → ∀ {j k : Nat} {a b : Row}, j < k → l[j]? = some a →
    l[k]? = some b → clash a b = true := by
  intro l
  induction l with
  | nil => intro _ j k a b _ h _; simp at h
  | cons r rs ih =>
    intro h j k a b hjk ha hb
    simp only [clashesAll, Bool.and_eq_true, List.all_eq_true] at h
    obtain ⟨k, rfl⟩ : ∃ m, k = m + 1 := ⟨k - 1, by omega⟩
    rw [List.getElem?_cons_succ] at hb
    cases j with
    | zero =>
      rw [List.getElem?_cons_zero, Option.some.injEq] at ha
      subst ha
      exact h.1 b (List.mem_of_getElem? hb)
    | succ j =>
      rw [List.getElem?_cons_succ] at ha
      exact ih h.2 (by omega) ha hb

/-- What the decoder answers for a word that one row accepts and no row before it. -/
theorem decodeWord_of_first {w : Word} {r : Row} (k : Nat) (hk : table[k]? = some r) (h : r.accepts w = true)
    (first : ∀ j < k, ∀ q, table[j]? = some q → q.accepts w = false) :
    decodeWord w = if r.proper w = true then .instr (r.build w) else .unpredictable := by
  have hf : table.find? (fun q => q.accepts w) = some r := by
    rw [List.find?_eq_some_iff_getElem]
    obtain ⟨hlt, hr⟩ := List.getElem?_eq_some_iff.1 hk
    refine ⟨h, k, hlt, hr, fun j hj => ?_⟩
    have := first j hj table[j] (List.getElem?_eq_getElem (by omega))
    simp [this]
  unfold decodeWord
  rw [hf]

/-- A word decodes to an instruction only by a row that accepts it as a proper word. -/
theorem decodeWord_instr {w : Word} {i : Instr} (h : decodeWord w = .instr i) :
    ∃ r ∈ table, r.accepts w = true ∧ r.proper w = true ∧ r.build w = i := by
  unfold decodeWord at h
  split at h
  · next r hr =>
    split_ifs at h with hp
    exact ⟨r, List.mem_of_find?_eq_some hr, by simpa using List.find?_some hr, hp, by simpa using h⟩
  · cases h

end Sys2Proof.Laws
end

