-- ==== Sys2Proof/Laws/Flags.lean ====
section
/-! SUPPORT. Laws of the status registers: what setting a bit, a field or the flags does to each bit, and what it leaves. -/
namespace Sys2Proof.Laws
open Sys2Proof Sys2Proof.Machine

theorem getLsbD_one_shift (i j : Nat) (hi : i < 32) (hj : j < 32) :
    ((1 : Word) <<< i).getLsbD j = decide (i = j) := by
  by_cases h : i = j
  · subst h; simp [hi]
  · simp only [BitVec.getLsbD_shiftLeft, hj, decide_true, Bool.true_and, h, decide_false]
    by_cases hlt : j < i
    · simp [hlt]
    · simp only [hlt, decide_false, Bool.not_false, Bool.true_and]
      rw [show (1 : Word) = BitVec.ofNat 32 (2 ^ 0) from rfl, BitVec.getLsbD_ofNat, Nat.testBit_two_pow]
      simp; omega

/-- The bits of a word with one bit set to a value. -/
theorem getLsbD_withBit (p : Word) (i j : Nat) (b : Bool) (hi : i < 32) (hj : j < 32) :
    (withBit p i b).getLsbD j = if i = j then b else p.getLsbD j := by
  unfold withBit
  cases b
  · simp only [Bool.false_eq_true, if_false, BitVec.getLsbD_and, BitVec.getLsbD_not, hj, decide_true, Bool.true_and,
      getLsbD_one_shift i j hi hj]
    by_cases h : i = j <;> simp [h]
  · simp only [if_true, BitVec.getLsbD_or, getLsbD_one_shift i j hi hj]
    by_cases h : i = j <;> simp [h]

/-- The bits of a word with the bits under a mask taken from another. -/
theorem getLsbD_withMask (p m v : Word) (j : Nat) (hj : j < 32) :
    (withMask p m v).getLsbD j = if m.getLsbD j then v.getLsbD j else p.getLsbD j := by
  simp only [withMask, BitVec.getLsbD_or, BitVec.getLsbD_and, BitVec.getLsbD_not, hj, decide_true, Bool.true_and]
  cases m.getLsbD j <;> simp

/-- The bits of a status register with other flags. -/
theorem getLsbD_withNzcv (p : Word) (n z c v : Bool) (j : Nat) (hj : j < 32) :
    (withNzcv p n z c v).getLsbD j =
      if j = 31 then n else if j = 30 then z else if j = 29 then c else if j = 28 then v else p.getLsbD j := by
  unfold withNzcv
  rw [getLsbD_withBit _ _ _ _ (by omega) hj, getLsbD_withBit _ _ _ _ (by omega) hj,
    getLsbD_withBit _ _ _ _ (by omega) hj, getLsbD_withBit _ _ _ _ (by omega) hj]
  by_cases h1 : j = 31
  · subst h1; simp
  · by_cases h2 : j = 30
    · subst h2; simp
    · by_cases h3 : j = 29
      · subst h3; simp
      · by_cases h4 : j = 28
        · subst h4; simp
        · simp [h1, h2, h3, h4, Ne.symm h1, Ne.symm h2, Ne.symm h3, Ne.symm h4]

/-- Under a mask that has none of them, the bits a field write changes do not show. -/
theorem withMask_and_disjoint (p m v k : Word) (h : m &&& k = 0) : withMask p m v &&& k = p &&& k := by
  apply BitVec.eq_of_getLsbD_eq
  intro j hj
  have hb := congrArg (fun x => BitVec.getLsbD x j) h
  rw [show ((0 : Word).getLsbD j) = false from BitVec.getLsbD_zero, BitVec.getLsbD_and] at hb
  rw [BitVec.getLsbD_and, BitVec.getLsbD_and, getLsbD_withMask _ _ _ _ hj]
  cases hm : m.getLsbD j <;> cases hk : k.getLsbD j <;> simp_all

/-- Likewise one bit. -/
theorem withBit_and_disjoint (p k : Word) (i : Nat) (b : Bool) (hi : i < 32) (h : k.getLsbD i = false) :
    withBit p i b &&& k = p &&& k := by
  apply BitVec.eq_of_getLsbD_eq
  intro j hj
  rw [BitVec.getLsbD_and, BitVec.getLsbD_and, getLsbD_withBit _ _ _ _ hi hj]
  by_cases e : i = j
  · subst e; simp [h]
  · simp [e]

/-- The mode bits of a status register with another mode are that mode's. -/
theorem modeBits_withMode (p : Word) (m : Mode) : modeBits (withMode p m) = m.number := by
  apply BitVec.eq_of_getLsbD_eq
  intro j hj
  have h32 : j < 32 := by omega
  simp only [modeBits, withMode, BitVec.getLsbD_setWidth, hj, decide_true, Bool.true_and]
  rw [getLsbD_withMask _ _ _ _ h32, if_pos]
  · simp [h32]
  · have : j = 0 ∨ j = 1 ∨ j = 2 ∨ j = 3 ∨ j = 4 := by omega
    rcases this with rfl | rfl | rfl | rfl | rfl <;> rfl

/-- A bit above the mode field keeps the mode bits. -/
theorem modeBits_withBit (p : Word) (i : Nat) (b : Bool) (hi : 5 ≤ i) (hi' : i < 32) :
    modeBits (withBit p i b) = modeBits p := by
  apply BitVec.eq_of_getLsbD_eq
  intro j hj
  simp only [modeBits, BitVec.getLsbD_setWidth, hj, decide_true, Bool.true_and]
  rw [getLsbD_withBit _ _ _ _ hi' (by omega), if_neg (by omega)]

@[simp] theorem modeOfNumber_number (m : Mode) : modeOfNumber m.number = some m := by cases m <;> rfl

/-- Setting the flags keeps the mode. -/
theorem modeBits_withNzcv (p : Word) (n z c v : Bool) : modeBits (withNzcv p n z c v) = modeBits p := by
  unfold withNzcv
  rw [modeBits_withBit _ _ _ (by omega) (by omega), modeBits_withBit _ _ _ (by omega) (by omega),
    modeBits_withBit _ _ _ (by omega) (by omega), modeBits_withBit _ _ _ (by omega) (by omega)]

/-- The status register after taking an exception is in the exception's mode. -/
theorem modeBits_entryPsr (k : ExceptionKind) (ee : Bool) (p : Word) : modeBits (entryPsr k ee p) = k.mode.number := by
  simp only [entryPsr]
  cases k.setsF <;> cases k.setsA <;>
    simp only [if_true, Bool.false_eq_true, if_false, modeBits_withBit _ 5 _ (by omega) (by omega),
      modeBits_withBit _ 6 _ (by omega) (by omega), modeBits_withBit _ 7 _ (by omega) (by omega),
      modeBits_withBit _ 8 _ (by omega) (by omega), modeBits_withBit _ 9 _ (by omega) (by omega),
      modeBits_withBit _ 24 _ (by omega) (by omega), modeBits_withMode]

/-- An exception is taken into its own mode. -/
theorem takeException_mode (k : ExceptionKind) (s : State) : (takeException k s).mode = k.mode := by
  show (modeOfNumber (modeBits (entryPsr k s.platform.ee s.cpsr))).getD .usr = k.mode
  rw [modeBits_entryPsr, modeOfNumber_number]
  rfl

end Sys2Proof.Laws
end

