-- ==== Sys2Proof/Laws/Memory.lean ====
section
/-! SUPPORT. Laws of the byte map: a read after a write, addresses a write leaves alone, and the canonical form, which
every memory operation keeps. -/
namespace Sys2Proof.Laws
open Sys2Proof Sys2Proof.Machine

/-! ### Reading after writing -/

@[simp] theorem read_nil (x : Nat) : Memory.read [] x = none := rfl

/-- Reading after writing one byte: the byte written at its address, as before elsewhere. -/
theorem read_write (m : Memory) (a x : Nat) (v : Byte) :
    Memory.read (Memory.write m a v) x = if x = a then some v else Memory.read m x := by
  induction m with
  | nil => simp only [Memory.write, Memory.read]
  | cons e m ih =>
    obtain ⟨b, u⟩ := e
    simp only [Memory.write]
    split_ifs with h1 h2 <;> simp only [Memory.read] <;> split_ifs <;> simp_all

theorem read_write_same (m : Memory) (a : Nat) (v : Byte) : Memory.read (Memory.write m a v) a = some v := by
  simp [read_write]

theorem read_write_other (m : Memory) {a x : Nat} (v : Byte) (h : x ≠ a) :
    Memory.read (Memory.write m a v) x = Memory.read m x := by
  simp [read_write, h]

/-- Writing bytes leaves the addresses outside them alone. -/
theorem read_writeBytes_outside (bs : List Byte) : ∀ (m : Memory) (a x : Nat), (x < a ∨ a + bs.length ≤ x) →
    Memory.read (Memory.writeBytes m a bs) x = Memory.read m x := by
  induction bs with
  | nil => intro m a x _; rfl
  | cons b bs ih =>
    intro m a x h
    simp only [List.length_cons] at h
    rw [Memory.writeBytes, ih _ _ _ (by omega), read_write_other _ _ (by omega)]

/-- Reading an address inside written bytes gives its byte. -/
theorem read_writeBytes_inside (bs : List Byte) : ∀ (m : Memory) (a k : Nat) (h : k < bs.length),
    Memory.read (Memory.writeBytes m a bs) (a + k) = some bs[k] := by
  induction bs with
  | nil => intro m a k h; simp at h
  | cons b bs ih =>
    intro m a k h
    rw [Memory.writeBytes]
    cases k with
    | zero => rw [read_writeBytes_outside _ _ _ _ (by omega), Nat.add_zero, read_write_same]; rfl
    | succ k =>
      rw [show a + (k + 1) = a + 1 + k by omega, ih _ _ _ (by simpa using h)]
      rfl

/-- Bytes written are read back. -/
theorem readBytes_writeBytes_same (bs : List Byte) : ∀ (m : Memory) (a : Nat) {n : Nat}, bs.length = n →
    (m.writeBytes a bs).readBytes a n = some bs := by
  induction bs with
  | nil => rintro m a n rfl; rfl
  | cons b bs ih =>
    rintro m a n rfl
    rw [List.length_cons, Memory.readBytes, Memory.writeBytes, ih _ _ rfl,
      read_writeBytes_outside _ _ _ _ (Or.inl (Nat.lt_succ_self a)), read_write_same]

/-- Bytes read depend only on the bytes read. -/
theorem readBytes_congr {m m' : Memory} (n : Nat) : ∀ a, (∀ k < n, Memory.read m (a + k) = Memory.read m' (a + k)) →
    m.readBytes a n = m'.readBytes a n := by
  induction n with
  | zero => intro a _; rfl
  | succ n ih =>
    intro a h
    have h0 := h 0 (by omega)
    rw [Nat.add_zero] at h0
    rw [Memory.readBytes, Memory.readBytes, h0, ih (a + 1) (fun k hk => by
      have := h (k + 1) (by omega)
      rwa [show a + (k + 1) = a + 1 + k by omega] at this)]

/-- Writing bytes does not change what is read outside them. -/
theorem readBytes_writeBytes_outside (m : Memory) (bs : List Byte) (a b n : Nat) (h : b + n ≤ a ∨ a + bs.length ≤ b) :
    (m.writeBytes a bs).readBytes b n = m.readBytes b n :=
  readBytes_congr n b (fun k hk => read_writeBytes_outside _ _ _ _ (by omega))

/-! ### Widths -/

@[simp] theorem littleOfWord_length (n : Nat) : ∀ v : Word, (littleOfWord v n).length = n := by
  induction n with
  | zero => intro v; rfl
  | succ n ih => intro v; simp [littleOfWord, ih]

@[simp] theorem disassemble_length (e : Bool) (n : Nat) (v : Word) : (disassemble e n v).length = n := by
  cases e <;> simp [disassemble]

/-! ### The canonical form -/

theorem above_mono {m : Memory} {lo hi : Nat} (h : lo ≤ hi) (hm : Memory.above hi m = true) :
    Memory.above lo m = true := by
  cases m with
  | nil => rfl
  | cons e m =>
    obtain ⟨b, u⟩ := e
    simp only [Memory.above, Bool.and_eq_true, decide_eq_true_eq] at hm ⊢
    exact ⟨⟨by omega, hm.1.2⟩, hm.2⟩

/-- Writing one byte of the address space keeps the canonical form. -/
theorem above_write (v : Byte) (a : Nat) (ha : a < 2 ^ 32) : ∀ (m : Memory) (lo : Nat), lo ≤ a →
    Memory.above lo m = true → Memory.above lo (Memory.write m a v) = true := by
  intro m
  induction m with
  | nil => intro lo hl _; simp [Memory.write, Memory.above, hl]; omega
  | cons e m ih =>
    obtain ⟨b, u⟩ := e
    intro lo hl hm
    have hm' := hm
    simp only [Memory.above, Bool.and_eq_true, decide_eq_true_eq] at hm
    obtain ⟨⟨h1, h2⟩, h3⟩ := hm
    simp only [Memory.write]
    split_ifs with c1 c2
    · simp only [Memory.above, Bool.and_eq_true, decide_eq_true_eq]
      exact ⟨⟨hl, ha⟩, ⟨by omega, h2⟩, h3⟩
    · subst c2
      simp only [Memory.above, Bool.and_eq_true, decide_eq_true_eq]
      exact ⟨⟨hl, ha⟩, h3⟩
    · simp only [Memory.above, Bool.and_eq_true, decide_eq_true_eq]
      exact ⟨⟨h1, h2⟩, ih (b + 1) (by omega) h3⟩

theorem wf_write {m : Memory} {a : Nat} (v : Byte) (ha : a < 2 ^ 32) (h : m.wf = true) :
    (Memory.write m a v).wf = true :=
  above_write v a ha m 0 (Nat.zero_le a) h

/-- Writing bytes of the address space keeps the canonical form. -/
theorem wf_writeBytes (bs : List Byte) : ∀ (m : Memory) (a : Nat), a + bs.length ≤ 2 ^ 32 → m.wf = true →
    (m.writeBytes a bs).wf = true := by
  induction bs with
  | nil => intro m a _ h; exact h
  | cons b bs ih =>
    intro m a ha h
    simp only [List.length_cons] at ha
    rw [Memory.writeBytes]
    exact ih _ _ (by omega) (wf_write b (by omega) h)

/-- In canonical form an address below the first entry reads as none. -/
theorem read_above {m : Memory} {lo x : Nat} (h : Memory.above lo m = true) (hx : x < lo) : Memory.read m x = none := by
  induction m generalizing lo with
  | nil => rfl
  | cons e m ih =>
    obtain ⟨b, u⟩ := e
    simp only [Memory.above, Bool.and_eq_true, decide_eq_true_eq] at h
    simp only [Memory.read]
    rw [if_neg (by omega)]
    exact ih h.2 (by omega)

/-- Memories in canonical form that read alike are equal. -/
theorem above_ext : ∀ (m m' : Memory) (lo : Nat), Memory.above lo m = true → Memory.above lo m' = true →
    (∀ x, Memory.read m x = Memory.read m' x) → m = m' := by
  intro m
  induction m with
  | nil =>
    intro m' lo _ _ h
    cases m' with
    | nil => rfl
    | cons e m' => have := h e.1; simp [Memory.read] at this
  | cons e m ih =>
    intro m' lo hm hm' h
    cases m' with
    | nil => have := h e.1; simp [Memory.read] at this
    | cons e' m' =>
      obtain ⟨b, u⟩ := e
      obtain ⟨b', u'⟩ := e'
      simp only [Memory.above, Bool.and_eq_true, decide_eq_true_eq] at hm hm'
      have hb : b = b' := by
        rcases Nat.lt_trichotomy b b' with hlt | heq | hgt
        · have := h b
          simp only [Memory.read, if_true] at this
          rw [if_neg (by omega), read_above hm'.2 (by omega)] at this
          cases this
        · exact heq
        · have := h b'
          simp only [Memory.read, if_true] at this
          rw [if_neg (by omega), read_above hm.2 (by omega)] at this
          cases this
      subst hb
      have hu := h b
      simp only [Memory.read, if_true, Option.some.injEq] at hu
      subst hu
      refine congrArg _ (ih m' (b + 1) hm.2 hm'.2 (fun x => ?_))
      by_cases hx : x = b
      · subst hx; rw [read_above hm.2 (by omega), read_above hm'.2 (by omega)]
      · have := h x
        simpa only [Memory.read, if_neg hx] using this

/-! ### The written addresses -/

theorem mem_addAddr (l : List Nat) (a x : Nat) : x ∈ addAddr l a ↔ x = a ∨ x ∈ l := by
  induction l with
  | nil => simp [addAddr]
  | cons b l ih =>
    simp only [addAddr]
    split_ifs with h1 h2
    · simp
    · subst h2; simp
    · simp only [List.mem_cons, ih]; tauto

/-- The addresses counted as written after a store: its bytes, and those before. -/
theorem mem_addAddrs (n : Nat) : ∀ (l : List Nat) (a x : Nat), x ∈ addAddrs l a n ↔ (a ≤ x ∧ x < a + n) ∨ x ∈ l := by
  induction n with
  | zero =>
    intro l a x
    simp only [addAddrs, Nat.add_zero]
    exact ⟨Or.inr, fun h => h.elim (fun h => absurd h.2 (by omega)) id⟩
  | succ n ih =>
    intro l a x
    rw [addAddrs, ih, mem_addAddr]
    constructor
    · rintro (h | h | h)
      · exact .inl (by omega)
      · exact .inl (by omega)
      · exact .inr h
    · rintro (h | h)
      · by_cases hx : x = a
        · exact .inr (.inl hx)
        · exact .inl (by omega)
      · exact .inr (.inr h)

theorem rising_addAddr (a : Nat) : ∀ (l : List Nat) (lo : Nat), lo ≤ a → risingFrom lo l = true →
    risingFrom lo (addAddr l a) = true := by
  intro l
  induction l with
  | nil => intro lo h _; simp [addAddr, risingFrom, h]
  | cons b l ih =>
    intro lo h hl
    have hl' := hl
    simp only [risingFrom, Bool.and_eq_true, decide_eq_true_eq] at hl
    simp only [addAddr]
    split_ifs with h1 h2
    · simp only [risingFrom, Bool.and_eq_true, decide_eq_true_eq]
      exact ⟨h, by omega, hl.2⟩
    · exact hl'
    · simp only [risingFrom, Bool.and_eq_true, decide_eq_true_eq]
      exact ⟨hl.1, ih (b + 1) (by omega) hl.2⟩

/-- Noting a store keeps the list of written addresses rising. -/
theorem rising_addAddrs (n : Nat) : ∀ (l : List Nat) (a : Nat), risingFrom 0 l = true →
    risingFrom 0 (addAddrs l a n) = true := by
  induction n with
  | zero => intro l a h; exact h
  | succ n ih => intro l a h; exact ih _ _ (rising_addAddr a l 0 (Nat.zero_le a) h)

/-! ### Reset -/

theorem reset_mem_wf : State.reset.mem.wf = true := rfl

end Sys2Proof.Laws
end

