-- ==== Sys2Proof/Laws/State.lean ====
section
/-! SUPPORT. What each update of the state leaves as it was, field by field, so that no proof unfolds an update. -/
namespace Sys2Proof.Machine

/-! setFlags -/

@[simp] theorem setFlags_gpr (s : State) (r : Word) (c v : Bool) : (s.setFlags r c v).gpr = s.gpr := rfl
@[simp] theorem setFlags_pc (s : State) (r : Word) (c v : Bool) : (s.setFlags r c v).pc = s.pc := rfl
@[simp] theorem setFlags_spsr (s : State) (r : Word) (c v : Bool) : (s.setFlags r c v).spsr = s.spsr := rfl
@[simp] theorem setFlags_monitor (s : State) (r : Word) (c v : Bool) : (s.setFlags r c v).monitor = s.monitor := rfl
@[simp] theorem setFlags_mem (s : State) (r : Word) (c v : Bool) : (s.setFlags r c v).mem = s.mem := rfl
@[simp] theorem setFlags_written (s : State) (r : Word) (c v : Bool) : (s.setFlags r c v).written = s.written := rfl
@[simp] theorem setFlags_coprocs (s : State) (r : Word) (c v : Bool) : (s.setFlags r c v).coprocs = s.coprocs := rfl
@[simp] theorem setFlags_lines (s : State) (r : Word) (c v : Bool) : (s.setFlags r c v).lines = s.lines := rfl
@[simp] theorem setFlags_freeCtr (s : State) (r : Word) (c v : Bool) : (s.setFlags r c v).freeCtr = s.freeCtr := rfl
@[simp] theorem setFlags_platform (s : State) (r : Word) (c v : Bool) : (s.setFlags r c v).platform = s.platform := rfl

/-! setFlags64 -/

@[simp] theorem setFlags64_gpr (s : State) (r : BitVec 64) : (s.setFlags64 r).gpr = s.gpr := rfl
@[simp] theorem setFlags64_pc (s : State) (r : BitVec 64) : (s.setFlags64 r).pc = s.pc := rfl
@[simp] theorem setFlags64_spsr (s : State) (r : BitVec 64) : (s.setFlags64 r).spsr = s.spsr := rfl
@[simp] theorem setFlags64_monitor (s : State) (r : BitVec 64) : (s.setFlags64 r).monitor = s.monitor := rfl
@[simp] theorem setFlags64_mem (s : State) (r : BitVec 64) : (s.setFlags64 r).mem = s.mem := rfl
@[simp] theorem setFlags64_written (s : State) (r : BitVec 64) : (s.setFlags64 r).written = s.written := rfl
@[simp] theorem setFlags64_coprocs (s : State) (r : BitVec 64) : (s.setFlags64 r).coprocs = s.coprocs := rfl
@[simp] theorem setFlags64_lines (s : State) (r : BitVec 64) : (s.setFlags64 r).lines = s.lines := rfl
@[simp] theorem setFlags64_freeCtr (s : State) (r : BitVec 64) : (s.setFlags64 r).freeCtr = s.freeCtr := rfl
@[simp] theorem setFlags64_platform (s : State) (r : BitVec 64) : (s.setFlags64 r).platform = s.platform := rfl

/-! setQ -/

@[simp] theorem setQ_gpr (s : State) (b : Bool) : (s.setQ b).gpr = s.gpr := rfl
@[simp] theorem setQ_pc (s : State) (b : Bool) : (s.setQ b).pc = s.pc := rfl
@[simp] theorem setQ_spsr (s : State) (b : Bool) : (s.setQ b).spsr = s.spsr := rfl
@[simp] theorem setQ_monitor (s : State) (b : Bool) : (s.setQ b).monitor = s.monitor := rfl
@[simp] theorem setQ_mem (s : State) (b : Bool) : (s.setQ b).mem = s.mem := rfl
@[simp] theorem setQ_written (s : State) (b : Bool) : (s.setQ b).written = s.written := rfl
@[simp] theorem setQ_coprocs (s : State) (b : Bool) : (s.setQ b).coprocs = s.coprocs := rfl
@[simp] theorem setQ_lines (s : State) (b : Bool) : (s.setQ b).lines = s.lines := rfl
@[simp] theorem setQ_freeCtr (s : State) (b : Bool) : (s.setQ b).freeCtr = s.freeCtr := rfl
@[simp] theorem setQ_platform (s : State) (b : Bool) : (s.setQ b).platform = s.platform := rfl

/-! setGe -/

@[simp] theorem setGe_gpr (s : State) (g : BitVec 4) : (s.setGe g).gpr = s.gpr := rfl
@[simp] theorem setGe_pc (s : State) (g : BitVec 4) : (s.setGe g).pc = s.pc := rfl
@[simp] theorem setGe_spsr (s : State) (g : BitVec 4) : (s.setGe g).spsr = s.spsr := rfl
@[simp] theorem setGe_monitor (s : State) (g : BitVec 4) : (s.setGe g).monitor = s.monitor := rfl
@[simp] theorem setGe_mem (s : State) (g : BitVec 4) : (s.setGe g).mem = s.mem := rfl
@[simp] theorem setGe_written (s : State) (g : BitVec 4) : (s.setGe g).written = s.written := rfl
@[simp] theorem setGe_coprocs (s : State) (g : BitVec 4) : (s.setGe g).coprocs = s.coprocs := rfl
@[simp] theorem setGe_lines (s : State) (g : BitVec 4) : (s.setGe g).lines = s.lines := rfl
@[simp] theorem setGe_freeCtr (s : State) (g : BitVec 4) : (s.setGe g).freeCtr = s.freeCtr := rfl
@[simp] theorem setGe_platform (s : State) (g : BitVec 4) : (s.setGe g).platform = s.platform := rfl

/-! setRegOf -/

@[simp] theorem setRegOf_pc (s : State) (m : Mode) (r : Reg) (v : Word) : (s.setRegOf m r v).pc = s.pc := rfl
@[simp] theorem setRegOf_cpsr (s : State) (m : Mode) (r : Reg) (v : Word) : (s.setRegOf m r v).cpsr = s.cpsr := rfl
@[simp] theorem setRegOf_spsr (s : State) (m : Mode) (r : Reg) (v : Word) : (s.setRegOf m r v).spsr = s.spsr := rfl
@[simp] theorem setRegOf_monitor (s : State) (m : Mode) (r : Reg) (v : Word) : (s.setRegOf m r v).monitor = s.monitor := rfl
@[simp] theorem setRegOf_mem (s : State) (m : Mode) (r : Reg) (v : Word) : (s.setRegOf m r v).mem = s.mem := rfl
@[simp] theorem setRegOf_written (s : State) (m : Mode) (r : Reg) (v : Word) : (s.setRegOf m r v).written = s.written := rfl
@[simp] theorem setRegOf_coprocs (s : State) (m : Mode) (r : Reg) (v : Word) : (s.setRegOf m r v).coprocs = s.coprocs := rfl
@[simp] theorem setRegOf_lines (s : State) (m : Mode) (r : Reg) (v : Word) : (s.setRegOf m r v).lines = s.lines := rfl
@[simp] theorem setRegOf_freeCtr (s : State) (m : Mode) (r : Reg) (v : Word) : (s.setRegOf m r v).freeCtr = s.freeCtr := rfl
@[simp] theorem setRegOf_platform (s : State) (m : Mode) (r : Reg) (v : Word) : (s.setRegOf m r v).platform = s.platform := rfl

/-! setReg -/

@[simp] theorem setReg_pc (s : State) (r : Reg) (v : Word) : (s.setReg r v).pc = s.pc := rfl
@[simp] theorem setReg_cpsr (s : State) (r : Reg) (v : Word) : (s.setReg r v).cpsr = s.cpsr := rfl
@[simp] theorem setReg_spsr (s : State) (r : Reg) (v : Word) : (s.setReg r v).spsr = s.spsr := rfl
@[simp] theorem setReg_monitor (s : State) (r : Reg) (v : Word) : (s.setReg r v).monitor = s.monitor := rfl
@[simp] theorem setReg_mem (s : State) (r : Reg) (v : Word) : (s.setReg r v).mem = s.mem := rfl
@[simp] theorem setReg_written (s : State) (r : Reg) (v : Word) : (s.setReg r v).written = s.written := rfl
@[simp] theorem setReg_coprocs (s : State) (r : Reg) (v : Word) : (s.setReg r v).coprocs = s.coprocs := rfl
@[simp] theorem setReg_lines (s : State) (r : Reg) (v : Word) : (s.setReg r v).lines = s.lines := rfl
@[simp] theorem setReg_freeCtr (s : State) (r : Reg) (v : Word) : (s.setReg r v).freeCtr = s.freeCtr := rfl
@[simp] theorem setReg_platform (s : State) (r : Reg) (v : Word) : (s.setReg r v).platform = s.platform := rfl

/-! setSpsrOf -/

@[simp] theorem setSpsrOf_gpr (s : State) (m : Mode) (v : Word) : (s.setSpsrOf m v).gpr = s.gpr := rfl
@[simp] theorem setSpsrOf_pc (s : State) (m : Mode) (v : Word) : (s.setSpsrOf m v).pc = s.pc := rfl
@[simp] theorem setSpsrOf_cpsr (s : State) (m : Mode) (v : Word) : (s.setSpsrOf m v).cpsr = s.cpsr := rfl
@[simp] theorem setSpsrOf_monitor (s : State) (m : Mode) (v : Word) : (s.setSpsrOf m v).monitor = s.monitor := rfl
@[simp] theorem setSpsrOf_mem (s : State) (m : Mode) (v : Word) : (s.setSpsrOf m v).mem = s.mem := rfl
@[simp] theorem setSpsrOf_written (s : State) (m : Mode) (v : Word) : (s.setSpsrOf m v).written = s.written := rfl
@[simp] theorem setSpsrOf_coprocs (s : State) (m : Mode) (v : Word) : (s.setSpsrOf m v).coprocs = s.coprocs := rfl
@[simp] theorem setSpsrOf_lines (s : State) (m : Mode) (v : Word) : (s.setSpsrOf m v).lines = s.lines := rfl
@[simp] theorem setSpsrOf_freeCtr (s : State) (m : Mode) (v : Word) : (s.setSpsrOf m v).freeCtr = s.freeCtr := rfl
@[simp] theorem setSpsrOf_platform (s : State) (m : Mode) (v : Word) : (s.setSpsrOf m v).platform = s.platform := rfl

/-! jump -/

@[simp] theorem jump_gpr (s : State) (a : Word) : (s.jump a).gpr = s.gpr := rfl
@[simp] theorem jump_cpsr (s : State) (a : Word) : (s.jump a).cpsr = s.cpsr := rfl
@[simp] theorem jump_spsr (s : State) (a : Word) : (s.jump a).spsr = s.spsr := rfl
@[simp] theorem jump_monitor (s : State) (a : Word) : (s.jump a).monitor = s.monitor := rfl
@[simp] theorem jump_mem (s : State) (a : Word) : (s.jump a).mem = s.mem := rfl
@[simp] theorem jump_written (s : State) (a : Word) : (s.jump a).written = s.written := rfl
@[simp] theorem jump_coprocs (s : State) (a : Word) : (s.jump a).coprocs = s.coprocs := rfl
@[simp] theorem jump_lines (s : State) (a : Word) : (s.jump a).lines = s.lines := rfl
@[simp] theorem jump_freeCtr (s : State) (a : Word) : (s.jump a).freeCtr = s.freeCtr := rfl
@[simp] theorem jump_platform (s : State) (a : Word) : (s.jump a).platform = s.platform := rfl

/-! link -/

@[simp] theorem link_pc (s : State) : (s.link).pc = s.pc := rfl
@[simp] theorem link_cpsr (s : State) : (s.link).cpsr = s.cpsr := rfl
@[simp] theorem link_spsr (s : State) : (s.link).spsr = s.spsr := rfl
@[simp] theorem link_monitor (s : State) : (s.link).monitor = s.monitor := rfl
@[simp] theorem link_mem (s : State) : (s.link).mem = s.mem := rfl
@[simp] theorem link_written (s : State) : (s.link).written = s.written := rfl
@[simp] theorem link_coprocs (s : State) : (s.link).coprocs = s.coprocs := rfl
@[simp] theorem link_lines (s : State) : (s.link).lines = s.lines := rfl
@[simp] theorem link_freeCtr (s : State) : (s.link).freeCtr = s.freeCtr := rfl
@[simp] theorem link_platform (s : State) : (s.link).platform = s.platform := rfl

/-! drawn -/

@[simp] theorem drawn_gpr (s : State) : (s.drawn).gpr = s.gpr := rfl
@[simp] theorem drawn_pc (s : State) : (s.drawn).pc = s.pc := rfl
@[simp] theorem drawn_cpsr (s : State) : (s.drawn).cpsr = s.cpsr := rfl
@[simp] theorem drawn_spsr (s : State) : (s.drawn).spsr = s.spsr := rfl
@[simp] theorem drawn_monitor (s : State) : (s.drawn).monitor = s.monitor := rfl
@[simp] theorem drawn_mem (s : State) : (s.drawn).mem = s.mem := rfl
@[simp] theorem drawn_written (s : State) : (s.drawn).written = s.written := rfl
@[simp] theorem drawn_coprocs (s : State) : (s.drawn).coprocs = s.coprocs := rfl
@[simp] theorem drawn_lines (s : State) : (s.drawn).lines = s.lines := rfl
@[simp] theorem drawn_platform (s : State) : (s.drawn).platform = s.platform := rfl

/-! putBytes -/

@[simp] theorem putBytes_gpr (s : State) (n : Nat) (a v : Word) : (s.putBytes n a v).gpr = s.gpr := rfl
@[simp] theorem putBytes_pc (s : State) (n : Nat) (a v : Word) : (s.putBytes n a v).pc = s.pc := rfl
@[simp] theorem putBytes_cpsr (s : State) (n : Nat) (a v : Word) : (s.putBytes n a v).cpsr = s.cpsr := rfl
@[simp] theorem putBytes_spsr (s : State) (n : Nat) (a v : Word) : (s.putBytes n a v).spsr = s.spsr := rfl
@[simp] theorem putBytes_monitor (s : State) (n : Nat) (a v : Word) : (s.putBytes n a v).monitor = s.monitor := rfl
@[simp] theorem putBytes_coprocs (s : State) (n : Nat) (a v : Word) : (s.putBytes n a v).coprocs = s.coprocs := rfl
@[simp] theorem putBytes_lines (s : State) (n : Nat) (a v : Word) : (s.putBytes n a v).lines = s.lines := rfl
@[simp] theorem putBytes_freeCtr (s : State) (n : Nat) (a v : Word) : (s.putBytes n a v).freeCtr = s.freeCtr := rfl
@[simp] theorem putBytes_platform (s : State) (n : Nat) (a v : Word) : (s.putBytes n a v).platform = s.platform := rfl

/-! tick -/

@[simp] theorem tick_gpr (s : State) : (s.tick).gpr = s.gpr := rfl
@[simp] theorem tick_pc (s : State) : (s.tick).pc = s.pc := rfl
@[simp] theorem tick_cpsr (s : State) : (s.tick).cpsr = s.cpsr := rfl
@[simp] theorem tick_spsr (s : State) : (s.tick).spsr = s.spsr := rfl
@[simp] theorem tick_monitor (s : State) : (s.tick).monitor = s.monitor := rfl
@[simp] theorem tick_mem (s : State) : (s.tick).mem = s.mem := rfl
@[simp] theorem tick_written (s : State) : (s.tick).written = s.written := rfl
@[simp] theorem tick_coprocs (s : State) : (s.tick).coprocs = s.coprocs := rfl
@[simp] theorem tick_freeCtr (s : State) : (s.tick).freeCtr = s.freeCtr := rfl
@[simp] theorem tick_platform (s : State) : (s.tick).platform = s.platform := rfl

/-! cpDone -/

@[simp] theorem cpDone_gpr (s : State) (cp : CpField) (w : Word) (ws : List Word) : (s.cpDone cp w ws).gpr = s.gpr := rfl
@[simp] theorem cpDone_pc (s : State) (cp : CpField) (w : Word) (ws : List Word) : (s.cpDone cp w ws).pc = s.pc := rfl
@[simp] theorem cpDone_cpsr (s : State) (cp : CpField) (w : Word) (ws : List Word) : (s.cpDone cp w ws).cpsr = s.cpsr := rfl
@[simp] theorem cpDone_spsr (s : State) (cp : CpField) (w : Word) (ws : List Word) : (s.cpDone cp w ws).spsr = s.spsr := rfl
@[simp] theorem cpDone_monitor (s : State) (cp : CpField) (w : Word) (ws : List Word) : (s.cpDone cp w ws).monitor = s.monitor := rfl
@[simp] theorem cpDone_mem (s : State) (cp : CpField) (w : Word) (ws : List Word) : (s.cpDone cp w ws).mem = s.mem := rfl
@[simp] theorem cpDone_written (s : State) (cp : CpField) (w : Word) (ws : List Word) : (s.cpDone cp w ws).written = s.written := rfl
@[simp] theorem cpDone_lines (s : State) (cp : CpField) (w : Word) (ws : List Word) : (s.cpDone cp w ws).lines = s.lines := rfl
@[simp] theorem cpDone_freeCtr (s : State) (cp : CpField) (w : Word) (ws : List Word) : (s.cpDone cp w ws).freeCtr = s.freeCtr := rfl
@[simp] theorem cpDone_platform (s : State) (cp : CpField) (w : Word) (ws : List Word) : (s.cpDone cp w ws).platform = s.platform := rfl

/-! takeException -/

@[simp] theorem takeException_monitor (s : State) (k : ExceptionKind) : (takeException k s).monitor = s.monitor := rfl
@[simp] theorem takeException_mem (s : State) (k : ExceptionKind) : (takeException k s).mem = s.mem := rfl
@[simp] theorem takeException_written (s : State) (k : ExceptionKind) : (takeException k s).written = s.written := rfl
@[simp] theorem takeException_coprocs (s : State) (k : ExceptionKind) : (takeException k s).coprocs = s.coprocs := rfl
@[simp] theorem takeException_lines (s : State) (k : ExceptionKind) : (takeException k s).lines = s.lines := rfl
@[simp] theorem takeException_freeCtr (s : State) (k : ExceptionKind) : (takeException k s).freeCtr = s.freeCtr := rfl
@[simp] theorem takeException_platform (s : State) (k : ExceptionKind) : (takeException k s).platform = s.platform := rfl

/-! withFetchWord -/

@[simp] theorem withFetchWord_gpr (s : State) (n w : Nat) : (s.withFetchWord n w).gpr = s.gpr := rfl
@[simp] theorem withFetchWord_pc (s : State) (n w : Nat) : (s.withFetchWord n w).pc = s.pc := rfl
@[simp] theorem withFetchWord_cpsr (s : State) (n w : Nat) : (s.withFetchWord n w).cpsr = s.cpsr := rfl
@[simp] theorem withFetchWord_spsr (s : State) (n w : Nat) : (s.withFetchWord n w).spsr = s.spsr := rfl
@[simp] theorem withFetchWord_monitor (s : State) (n w : Nat) : (s.withFetchWord n w).monitor = s.monitor := rfl
@[simp] theorem withFetchWord_coprocs (s : State) (n w : Nat) : (s.withFetchWord n w).coprocs = s.coprocs := rfl
@[simp] theorem withFetchWord_lines (s : State) (n w : Nat) : (s.withFetchWord n w).lines = s.lines := rfl
@[simp] theorem withFetchWord_freeCtr (s : State) (n w : Nat) : (s.withFetchWord n w).freeCtr = s.freeCtr := rfl
@[simp] theorem withFetchWord_platform (s : State) (n w : Nat) : (s.withFetchWord n w).platform = s.platform := rfl

/-! writeBack -/

@[simp] theorem writeBack_pc (s : State) (b : Bool) (r : Reg) (v : Word) : (s.writeBack b r v).pc = s.pc := by cases b <;> rfl
@[simp] theorem writeBack_cpsr (s : State) (b : Bool) (r : Reg) (v : Word) : (s.writeBack b r v).cpsr = s.cpsr := by cases b <;> rfl
@[simp] theorem writeBack_spsr (s : State) (b : Bool) (r : Reg) (v : Word) : (s.writeBack b r v).spsr = s.spsr := by cases b <;> rfl
@[simp] theorem writeBack_monitor (s : State) (b : Bool) (r : Reg) (v : Word) : (s.writeBack b r v).monitor = s.monitor := by cases b <;> rfl
@[simp] theorem writeBack_mem (s : State) (b : Bool) (r : Reg) (v : Word) : (s.writeBack b r v).mem = s.mem := by cases b <;> rfl
@[simp] theorem writeBack_written (s : State) (b : Bool) (r : Reg) (v : Word) : (s.writeBack b r v).written = s.written := by cases b <;> rfl
@[simp] theorem writeBack_coprocs (s : State) (b : Bool) (r : Reg) (v : Word) : (s.writeBack b r v).coprocs = s.coprocs := by cases b <;> rfl
@[simp] theorem writeBack_lines (s : State) (b : Bool) (r : Reg) (v : Word) : (s.writeBack b r v).lines = s.lines := by cases b <;> rfl
@[simp] theorem writeBack_freeCtr (s : State) (b : Bool) (r : Reg) (v : Word) : (s.writeBack b r v).freeCtr = s.freeCtr := by cases b <;> rfl
@[simp] theorem writeBack_platform (s : State) (b : Bool) (r : Reg) (v : Word) : (s.writeBack b r v).platform = s.platform := by cases b <;> rfl

/-! The updates by recursion -/

@[simp] theorem setRegsOf_pc (s : State) (m : Mode) (rs : List Reg) (vs : List Word) : (s.setRegsOf m rs vs).pc = s.pc := by
  induction rs generalizing s vs with
  | nil => rfl
  | cons r rs ih =>
    cases vs with
    | nil => rfl
    | cons v vs => exact ih (s.setRegOf m r v) vs

@[simp] theorem setRegsOf_cpsr (s : State) (m : Mode) (rs : List Reg) (vs : List Word) : (s.setRegsOf m rs vs).cpsr = s.cpsr := by
  induction rs generalizing s vs with
  | nil => rfl
  | cons r rs ih =>
    cases vs with
    | nil => rfl
    | cons v vs => exact ih (s.setRegOf m r v) vs

@[simp] theorem setRegsOf_spsr (s : State) (m : Mode) (rs : List Reg) (vs : List Word) : (s.setRegsOf m rs vs).spsr = s.spsr := by
  induction rs generalizing s vs with
  | nil => rfl
  | cons r rs ih =>
    cases vs with
    | nil => rfl
    | cons v vs => exact ih (s.setRegOf m r v) vs

@[simp] theorem setRegsOf_monitor (s : State) (m : Mode) (rs : List Reg) (vs : List Word) : (s.setRegsOf m rs vs).monitor = s.monitor := by
  induction rs generalizing s vs with
  | nil => rfl
  | cons r rs ih =>
    cases vs with
    | nil => rfl
    | cons v vs => exact ih (s.setRegOf m r v) vs

@[simp] theorem setRegsOf_mem (s : State) (m : Mode) (rs : List Reg) (vs : List Word) : (s.setRegsOf m rs vs).mem = s.mem := by
  induction rs generalizing s vs with
  | nil => rfl
  | cons r rs ih =>
    cases vs with
    | nil => rfl
    | cons v vs => exact ih (s.setRegOf m r v) vs

@[simp] theorem setRegsOf_written (s : State) (m : Mode) (rs : List Reg) (vs : List Word) : (s.setRegsOf m rs vs).written = s.written := by
  induction rs generalizing s vs with
  | nil => rfl
  | cons r rs ih =>
    cases vs with
    | nil => rfl
    | cons v vs => exact ih (s.setRegOf m r v) vs

@[simp] theorem setRegsOf_coprocs (s : State) (m : Mode) (rs : List Reg) (vs : List Word) : (s.setRegsOf m rs vs).coprocs = s.coprocs := by
  induction rs generalizing s vs with
  | nil => rfl
  | cons r rs ih =>
    cases vs with
    | nil => rfl
    | cons v vs => exact ih (s.setRegOf m r v) vs

@[simp] theorem setRegsOf_lines (s : State) (m : Mode) (rs : List Reg) (vs : List Word) : (s.setRegsOf m rs vs).lines = s.lines := by
  induction rs generalizing s vs with
  | nil => rfl
  | cons r rs ih =>
    cases vs with
    | nil => rfl
    | cons v vs => exact ih (s.setRegOf m r v) vs

@[simp] theorem setRegsOf_freeCtr (s : State) (m : Mode) (rs : List Reg) (vs : List Word) : (s.setRegsOf m rs vs).freeCtr = s.freeCtr := by
  induction rs generalizing s vs with
  | nil => rfl
  | cons r rs ih =>
    cases vs with
    | nil => rfl
    | cons v vs => exact ih (s.setRegOf m r v) vs

@[simp] theorem setRegsOf_platform (s : State) (m : Mode) (rs : List Reg) (vs : List Word) : (s.setRegsOf m rs vs).platform = s.platform := by
  induction rs generalizing s vs with
  | nil => rfl
  | cons r rs ih =>
    cases vs with
    | nil => rfl
    | cons v vs => exact ih (s.setRegOf m r v) vs

@[simp] theorem freeRegs_pc (s : State) (m : Mode) (rs : List Reg) : (s.freeRegs m rs).pc = s.pc := by
  induction rs generalizing s with
  | nil => rfl
  | cons r rs ih => exact ih ((s.setRegOf m r s.freeValue).drawn)

@[simp] theorem freeRegs_cpsr (s : State) (m : Mode) (rs : List Reg) : (s.freeRegs m rs).cpsr = s.cpsr := by
  induction rs generalizing s with
  | nil => rfl
  | cons r rs ih => exact ih ((s.setRegOf m r s.freeValue).drawn)

@[simp] theorem freeRegs_spsr (s : State) (m : Mode) (rs : List Reg) : (s.freeRegs m rs).spsr = s.spsr := by
  induction rs generalizing s with
  | nil => rfl
  | cons r rs ih => exact ih ((s.setRegOf m r s.freeValue).drawn)

@[simp] theorem freeRegs_monitor (s : State) (m : Mode) (rs : List Reg) : (s.freeRegs m rs).monitor = s.monitor := by
  induction rs generalizing s with
  | nil => rfl
  | cons r rs ih => exact ih ((s.setRegOf m r s.freeValue).drawn)

@[simp] theorem freeRegs_mem (s : State) (m : Mode) (rs : List Reg) : (s.freeRegs m rs).mem = s.mem := by
  induction rs generalizing s with
  | nil => rfl
  | cons r rs ih => exact ih ((s.setRegOf m r s.freeValue).drawn)

@[simp] theorem freeRegs_written (s : State) (m : Mode) (rs : List Reg) : (s.freeRegs m rs).written = s.written := by
  induction rs generalizing s with
  | nil => rfl
  | cons r rs ih => exact ih ((s.setRegOf m r s.freeValue).drawn)

@[simp] theorem freeRegs_coprocs (s : State) (m : Mode) (rs : List Reg) : (s.freeRegs m rs).coprocs = s.coprocs := by
  induction rs generalizing s with
  | nil => rfl
  | cons r rs ih => exact ih ((s.setRegOf m r s.freeValue).drawn)

@[simp] theorem freeRegs_lines (s : State) (m : Mode) (rs : List Reg) : (s.freeRegs m rs).lines = s.lines := by
  induction rs generalizing s with
  | nil => rfl
  | cons r rs ih => exact ih ((s.setRegOf m r s.freeValue).drawn)

@[simp] theorem freeRegs_platform (s : State) (m : Mode) (rs : List Reg) : (s.freeRegs m rs).platform = s.platform := by
  induction rs generalizing s with
  | nil => rfl
  | cons r rs ih => exact ih ((s.setRegOf m r s.freeValue).drawn)

@[simp] theorem freeWords_gpr (s : State) (a : Word) (k : Nat) : (s.freeWords a k).gpr = s.gpr := by
  induction k generalizing s a with
  | zero => rfl
  | succ k ih => exact ih ((s.putBytes 4 a s.freeValue).drawn) (a + 4)

@[simp] theorem freeWords_pc (s : State) (a : Word) (k : Nat) : (s.freeWords a k).pc = s.pc := by
  induction k generalizing s a with
  | zero => rfl
  | succ k ih => exact ih ((s.putBytes 4 a s.freeValue).drawn) (a + 4)

@[simp] theorem freeWords_cpsr (s : State) (a : Word) (k : Nat) : (s.freeWords a k).cpsr = s.cpsr := by
  induction k generalizing s a with
  | zero => rfl
  | succ k ih => exact ih ((s.putBytes 4 a s.freeValue).drawn) (a + 4)

@[simp] theorem freeWords_spsr (s : State) (a : Word) (k : Nat) : (s.freeWords a k).spsr = s.spsr := by
  induction k generalizing s a with
  | zero => rfl
  | succ k ih => exact ih ((s.putBytes 4 a s.freeValue).drawn) (a + 4)

@[simp] theorem freeWords_monitor (s : State) (a : Word) (k : Nat) : (s.freeWords a k).monitor = s.monitor := by
  induction k generalizing s a with
  | zero => rfl
  | succ k ih => exact ih ((s.putBytes 4 a s.freeValue).drawn) (a + 4)

@[simp] theorem freeWords_coprocs (s : State) (a : Word) (k : Nat) : (s.freeWords a k).coprocs = s.coprocs := by
  induction k generalizing s a with
  | zero => rfl
  | succ k ih => exact ih ((s.putBytes 4 a s.freeValue).drawn) (a + 4)

@[simp] theorem freeWords_lines (s : State) (a : Word) (k : Nat) : (s.freeWords a k).lines = s.lines := by
  induction k generalizing s a with
  | zero => rfl
  | succ k ih => exact ih ((s.putBytes 4 a s.freeValue).drawn) (a + 4)

@[simp] theorem freeWords_platform (s : State) (a : Word) (k : Nat) : (s.freeWords a k).platform = s.platform := by
  induction k generalizing s a with
  | zero => rfl
  | succ k ih => exact ih ((s.putBytes 4 a s.freeValue).drawn) (a + 4)

/-! What the updates write -/

@[simp] theorem jump_pc (s : State) (a : Word) : (s.jump a).pc = a := rfl
@[simp] theorem drawn_freeCtr (s : State) : s.drawn.freeCtr = s.freeCtr + 1 := rfl
@[simp] theorem tick_lines' (s : State) : s.tick.lines = s.lines.tail := rfl
@[simp] theorem putBytes_mem' (s : State) (n : Nat) (a v : Word) :
    (s.putBytes n a v).mem = s.mem.writeBytes a.toNat (disassemble s.e n v) := rfl
@[simp] theorem putBytes_written' (s : State) (n : Nat) (a v : Word) :
    (s.putBytes n a v).written = addAddrs s.written a.toNat n := rfl
@[simp] theorem setFlags_cpsr' (s : State) (r : Word) (c v : Bool) :
    (s.setFlags r c v).cpsr = withNzcv s.cpsr (r.getLsbD 31) (r == 0) c v := rfl
@[simp] theorem setFlags64_cpsr' (s : State) (r : BitVec 64) :
    (s.setFlags64 r).cpsr = withNzcv s.cpsr (r.getLsbD 63) (r == 0) s.c s.v := rfl
@[simp] theorem setQ_cpsr' (s : State) (b : Bool) :
    (s.setQ b).cpsr = if b then withBit s.cpsr 27 true else s.cpsr := rfl
@[simp] theorem setGe_cpsr' (s : State) (g : BitVec 4) :
    (s.setGe g).cpsr = withMask s.cpsr 0x000F0000 (g.setWidth 32 <<< 16) := rfl
@[simp] theorem takeException_pc' (k : ExceptionKind) (s : State) :
    (takeException k s).pc = vectorBase s.platform + k.offset := rfl
@[simp] theorem takeException_cpsr' (k : ExceptionKind) (s : State) :
    (takeException k s).cpsr = entryPsr k s.platform.ee s.cpsr := rfl

/-! What is read of the status register and the mode is unchanged by an update of another field -/

theorem mode_congr {s t : State} (h : t.cpsr = s.cpsr) : t.mode = s.mode := by simp [State.mode, h]
theorem privilege_congr {s t : State} (h : t.cpsr = s.cpsr) : t.privilege = s.privilege := by
  simp [State.privilege, State.privileged, mode_congr h]
@[simp] theorem setReg_mode (s : State) (r : Reg) (v : Word) : (s.setReg r v).mode = s.mode := rfl
@[simp] theorem setRegOf_mode (s : State) (m : Mode) (r : Reg) (v : Word) : (s.setRegOf m r v).mode = s.mode := rfl
@[simp] theorem putBytes_mode (s : State) (n : Nat) (a v : Word) : (s.putBytes n a v).mode = s.mode := rfl
@[simp] theorem putBytes_e (s : State) (n : Nat) (a v : Word) : (s.putBytes n a v).e = s.e := rfl
@[simp] theorem putBytes_privilege (s : State) (n : Nat) (a v : Word) : (s.putBytes n a v).privilege = s.privilege := rfl
@[simp] theorem tick_mode (s : State) : s.tick.mode = s.mode := rfl
@[simp] theorem cpDone_mode (s : State) (cp : CpField) (w : Word) (ws : List Word) : (s.cpDone cp w ws).mode = s.mode := rfl
@[simp] theorem writeBack_mode (s : State) (b : Bool) (r : Reg) (v : Word) : (s.writeBack b r v).mode = s.mode := by
  cases b <;> rfl

/-! Registers -/

/-- A cell just written. -/
@[simp] theorem get_set_same (g : Vector Word 30) (k : Fin 30) (v : Word) : (g.set k v).get k = v :=
  Vector.getElem_set_self k.isLt

/-- Another cell than the one written. -/
theorem get_set_other (g : Vector Word 30) (k j : Fin 30) (v : Word) (h : j ≠ k) : (g.set k v).get j = g.get j :=
  Vector.getElem_set_ne k.isLt j.isLt (fun e => h (Fin.ext e.symm))

/-- A register other than R15 is its cell (10_state.md R32). -/
theorem regOf_eq (s : State) (m : Mode) (r : Reg) (h : r ≠ 15) : s.regOf m r = s.gpr.get (cell m r) := if_neg h

/-- A register of the current mode other than R15 is its cell. -/
theorem reg_eq (s : State) (r : Reg) (h : r ≠ 15) : s.reg r = s.gpr.get (cell s.mode r) := if_neg h

/-- R15 reads as the address of the instruction plus 8 (10_state.md R37). -/
theorem reg_pc (s : State) : s.reg 15 = s.pc + 8 := rfl

/-- Writing a register other than R15 writes its cell. -/
theorem setRegOf_gpr (s : State) (m : Mode) (r : Reg) (v : Word) (h : r ≠ 15) :
    (s.setRegOf m r v).gpr = s.gpr.set (cell m r) v := if_neg h

/-- Writing a register of the current mode other than R15 writes its cell. -/
theorem setReg_gpr (s : State) (r : Reg) (v : Word) (h : r ≠ 15) :
    (s.setReg r v).gpr = s.gpr.set (cell s.mode r) v := if_neg h

/-- The state with a register other than R15 written. -/
theorem setReg_eq (s : State) (r : Reg) (v : Word) (h : r ≠ 15) :
    s.setReg r v = { s with gpr := s.gpr.set (cell s.mode r) v } := by
  rw [← setReg_gpr s r v h]; rfl

/-- No two registers of one mode share a cell (10_state.md R32). -/
theorem cell_inj (m : Mode) (r q : Reg) (hr : r ≠ 15) (hq : q ≠ 15) (h : cell m r = cell m q) : r = q := by
  revert r q; cases m <;> decide

/-- A register just written reads as the value written. -/
theorem setReg_reg_same (s : State) (r : Reg) (v : Word) (h : r ≠ 15) : (s.setReg r v).reg r = v := by
  rw [reg_eq _ _ h, setReg_gpr _ _ _ h, setReg_mode, get_set_same]

/-- Writing a register leaves the others. -/
theorem setReg_reg_other (s : State) (r q : Reg) (v : Word) (hr : r ≠ 15) (hq : q ≠ r) : (s.setReg r v).reg q = s.reg q := by
  by_cases h : q = 15
  · subst h; rfl
  · rw [reg_eq _ _ h, setReg_gpr _ _ _ hr, setReg_mode, get_set_other _ _ _ _ (fun e => hq (cell_inj _ _ _ h hr e)),
      reg_eq _ _ h]

end Sys2Proof.Machine
end

