-- ==== Sys2Proof/Laws/Ops.lean ====
section
/-! SUPPORT. One law for each shared operation, saying once everything it can do. An operation that ends an instruction
has a law of the form: it answers `next t` exactly when ..., and then `t` is ...; one that gives a value or a state has
its equations. -/
namespace Sys2Proof.Laws
open Sys2Proof Sys2Proof.Machine

/-! ### Ends of an instruction -/

theorem advance_of_lt {s : State} (h : s.pc.toNat + 4 < 2 ^ 32) : advance s = .next { s with pc := s.pc + 4 } := if_pos h

theorem advance_next {s t : State} :
    advance s = .next t ↔ s.pc.toNat + 4 < 2 ^ 32 ∧ t = { s with pc := s.pc + 4 } := by
  unfold advance
  split_ifs with h
  · simp only [Host.Outcome.next.injEq]; exact ⟨fun e => ⟨h, e.symm⟩, fun e => e.2.symm⟩
  · exact ⟨fun e => (nomatch e), fun e => absurd e.1 h⟩

theorem whenCond_pass {c : Cond} {s : State} (o : Out) (h : conditionPassed c s = true) : whenCond c s o = o := by
  simp [whenCond, h]

theorem whenCond_fail {c : Cond} {s : State} (o : Out) (h : conditionPassed c s = false) :
    whenCond c s o = advance s := by
  simp [whenCond, h]

/-- An instruction with a condition: it goes on, or the condition fails and it does nothing. -/
theorem whenCond_next {c : Cond} {s t : State} {o : Out} :
    whenCond c s o = .next t ↔
      (conditionPassed c s = true ∧ o = .next t) ∨ (conditionPassed c s = false ∧ advance s = .next t) := by
  unfold whenCond
  cases h : conditionPassed c s <;> simp

@[simp] theorem unlessPc_nil (o : Out) : unlessPc [] o = o := rfl

theorem unlessPc_of {rs : List Reg} (o : Out) (h : anyPc rs = false) : unlessPc rs o = o := by
  simp [unlessPc, h]

theorem unlessPc_fault {rs : List Reg} (o : Out) (h : anyPc rs = true) : unlessPc rs o = .fault .pcOperand := by
  simp [unlessPc, h]

theorem anyPc_iff {rs : List Reg} : anyPc rs = true ↔ (15 : Reg) ∈ rs := by
  simp [anyPc]

theorem anyPc_false_iff {rs : List Reg} : anyPc rs = false ↔ ∀ r ∈ rs, r ≠ (15 : Reg) := by
  simp [anyPc]

theorem unlessPc_next {rs : List Reg} {o : Out} {t : State} :
    unlessPc rs o = .next t ↔ anyPc rs = false ∧ o = .next t := by
  unfold unlessPc
  cases h : anyPc rs <;> simp

theorem unlessSame_of {a b : Reg} (o : Out) (h : a ≠ b) : unlessSame a b o = o := if_neg h

theorem unlessSame_next {a b : Reg} {o : Out} {t : State} :
    unlessSame a b o = .next t ↔ a ≠ b ∧ o = .next t := by
  unfold unlessSame
  split_ifs with h <;> simp [h]

/-- An interworking write of the PC. -/
theorem interwork_next {s t : State} {v : Word} :
    interwork s v = .next t ↔
      v.extractLsb' 0 2 ≠ 0b10 ∧ t = { s with cpsr := withBit s.cpsr 5 (v.getLsbD 0), pc := v &&& 0xFFFFFFFE } := by
  unfold interwork
  split_ifs with h
  · simp [h]
  · simp only [Host.Outcome.next.injEq]; exact ⟨fun e => ⟨h, e.symm⟩, fun e => e.2.symm⟩

/-- The target of a branch is the exact sum modulo 2^32. -/
theorem branchTarget_eq (s : State) (imm24 : BitVec 24) :
    branchTarget s imm24 = BitVec.ofInt 32 (exactTarget s imm24) := by
  have h : (imm24.signExtend 32 <<< 2 : Word) = BitVec.ofInt 32 (4 * imm24.toInt) := by
    rw [BitVec.shiftLeft_eq_mul_twoPow, show BitVec.twoPow 32 2 = BitVec.ofInt 32 4 from rfl,
      BitVec.signExtend, ← BitVec.ofInt_mul, Int.mul_comm]
  unfold branchTarget exactTarget
  rw [h, BitVec.ofInt_add, BitVec.ofInt_add, BitVec.ofInt_natCast, BitVec.ofNat_toNat, BitVec.setWidth_eq]
  rfl

/-- A branch that faults where its target wraps: it goes on where the exact target is an address. -/
theorem unlessTargetWraps_next {s t : State} {imm24 : BitVec 24} {o : Out} :
    unlessTargetWraps s imm24 o = .next t ↔ 0 ≤ exactTarget s imm24 ∧ exactTarget s imm24 < 2 ^ 32 ∧ o = .next t := by
  unfold unlessTargetWraps
  split_ifs with h
  · exact ⟨fun e => ⟨h.1, h.2, e⟩, fun e => e.2.2⟩
  · exact ⟨fun e => (nomatch e), fun e => absurd ⟨e.1, e.2.1⟩ h⟩

/-- An exception return. -/
theorem exceptionReturn_next {s t : State} {psr v : Word} :
    exceptionReturn s psr v = .next t ↔ legalMode psr = true ∧ t = { s with cpsr := psr, pc := alignFor psr v } := by
  unfold exceptionReturn legalMode
  cases h : modeOfNumber (modeBits psr) with
  | none => simp
  | some m =>
    simp only [Host.Outcome.next.injEq, Option.isSome_some]
    exact ⟨fun e => ⟨trivial, e.symm⟩, fun e => e.2.symm⟩

theorem exceptionReturn_of {s : State} {psr : Word} (v : Word) (h : legalMode psr = true) :
    exceptionReturn s psr v = .next { s with cpsr := psr, pc := alignFor psr v } :=
  exceptionReturn_next.2 ⟨h, rfl⟩

theorem exceptionReturn_illegal {s : State} {psr : Word} (v : Word) (h : legalMode psr = false) :
    exceptionReturn s psr v = .fault .illegalMode := by
  unfold legalMode at h
  unfold exceptionReturn
  cases h' : modeOfNumber (modeBits psr) with
  | none => rfl
  | some m => simp [h'] at h

theorem raise_next {k : ExceptionKind} {s t : State} : raise k s = .next t ↔ t = takeException k s := by
  simp only [raise, Host.Outcome.next.injEq]; exact eq_comm

/-! ### One memory access -/

theorem crossesTop_false {a : Word} {n : Nat} : crossesTop a n = false ↔ a.toNat + n ≤ 2 ^ 32 := by simp [crossesTop]

theorem crossesTop_true {a : Word} {n : Nat} : crossesTop a n = true ↔ 2 ^ 32 < a.toNat + n := by simp [crossesTop]

/-- An access is reachable exactly where it neither crosses the top nor aborts. -/
theorem reachable_iff {s : State} {v : Privilege} {k : AccessKind} {n : Nat} {a : Word} :
    s.reachable v k n a ↔ crossesTop a n = false ∧ s.aborts v k n a = false := by
  rw [crossesTop_false]
  unfold State.aborts State.reachable
  cases memPermitted s.platform a.toNat n k v <;> cases memAborts s.platform a.toNat n k <;> simp

/-- A load gives a value exactly where the bytes are readable. -/
theorem load_ok {s : State} {v : Privilege} {n : Nat} {a w : Word} : s.load v n a = .ok w ↔ s.readable v n a w := by
  unfold State.load State.readable
  rw [reachable_iff]
  cases crossesTop a n <;> cases s.aborts v .read n a <;> cases s.mem.readBytes a.toNat n <;> simp

/-- A load aborts exactly where the access does not cross the top and is not let through. -/
theorem load_abort {s : State} {v : Privilege} {n d : Nat} {a : Word} :
    s.load v n a = .abort d ↔ a.toNat + n ≤ 2 ^ 32 ∧ ¬s.reachable v .read n a ∧ d = 0 := by
  unfold State.load
  rw [reachable_iff, ← crossesTop_false]
  cases crossesTop a n <;> cases s.aborts v .read n a <;> cases s.mem.readBytes a.toNat n <;> simp [eq_comm]

/-- Storing bytes is noting them and putting them. -/
theorem putBytes_eq (s : State) (n : Nat) (a w : Word) : s.putBytes n a w = s.withStored n a w := rfl

/-- A store is done exactly where the access is let through. -/
theorem store_ok {s t : State} {v : Privilege} {n : Nat} {a w : Word} :
    s.store v n a w = .ok t ↔ s.writable v n a ∧ t = s.withStored n a w := by
  unfold State.store State.writable
  rw [reachable_iff]
  cases crossesTop a n <;> cases s.aborts v .write n a <;> simp [putBytes_eq, eq_comm]

theorem store_abort {s : State} {v : Privilege} {n d : Nat} {a w : Word} :
    s.store v n a w = .abort d ↔ a.toNat + n ≤ 2 ^ 32 ∧ ¬s.reachable v .write n a ∧ d = 0 := by
  unfold State.store
  rw [reachable_iff, ← crossesTop_false]
  cases crossesTop a n <;> cases s.aborts v .write n a <;> simp [eq_comm]

/-- A store faults exactly where it crosses the top. -/
theorem store_fault {s : State} {v : Privilege} {n : Nat} {a w : Word} {f : Fault} :
    s.store v n a w = .fault f ↔ 2 ^ 32 < a.toNat + n ∧ f = .addressWrap := by
  unfold State.store
  rw [← crossesTop_true]
  cases crossesTop a n <;> cases s.aborts v .write n a <;> simp [eq_comm]

/-- An access as one whole: past the checks of the top and of its alignment it goes on; misaligned it takes the Data
Abort. -/
theorem whenAligned_next {n : Nat} {a : Word} {s t : State} {o : Out} :
    whenAligned n a s o = .next t ↔
      a.toNat + n ≤ 2 ^ 32 ∧
        ((a.toNat % n = 0 ∧ o = .next t) ∨ (a.toNat % n ≠ 0 ∧ t = takeException .dataAbort s)) := by
  unfold whenAligned
  rw [← crossesTop_false]
  cases crossesTop a n <;> by_cases h : a.toNat % n = 0 <;> simp [h, raise_next]

/-! ### Several accesses -/

/-- What storing words leaves as it was. -/
theorem withStoredWords_fields (ws : List Word) : ∀ (s : State) (a : Word),
    let t := s.withStoredWords a ws
    t.gpr = s.gpr ∧ t.pc = s.pc ∧ t.cpsr = s.cpsr ∧ t.spsr = s.spsr ∧ t.monitor = s.monitor ∧ t.coprocs = s.coprocs ∧
      t.lines = s.lines ∧ t.freeCtr = s.freeCtr ∧ t.platform = s.platform := by
  induction ws with
  | nil => intro s a; simp [State.withStoredWords]
  | cons w ws ih => intro s a; exact ih (s.withStored 4 a w) (a + 4)

@[simp] theorem withStoredWords_gpr (s : State) (a : Word) (ws : List Word) : (s.withStoredWords a ws).gpr = s.gpr :=
  (withStoredWords_fields ws s a).1
@[simp] theorem withStoredWords_pc (s : State) (a : Word) (ws : List Word) : (s.withStoredWords a ws).pc = s.pc :=
  (withStoredWords_fields ws s a).2.1
@[simp] theorem withStoredWords_cpsr (s : State) (a : Word) (ws : List Word) : (s.withStoredWords a ws).cpsr = s.cpsr :=
  (withStoredWords_fields ws s a).2.2.1
@[simp] theorem withStoredWords_spsr (s : State) (a : Word) (ws : List Word) : (s.withStoredWords a ws).spsr = s.spsr :=
  (withStoredWords_fields ws s a).2.2.2.1
@[simp] theorem withStoredWords_monitor (s : State) (a : Word) (ws : List Word) :
    (s.withStoredWords a ws).monitor = s.monitor := (withStoredWords_fields ws s a).2.2.2.2.1
@[simp] theorem withStoredWords_coprocs (s : State) (a : Word) (ws : List Word) :
    (s.withStoredWords a ws).coprocs = s.coprocs := (withStoredWords_fields ws s a).2.2.2.2.2.1
@[simp] theorem withStoredWords_lines (s : State) (a : Word) (ws : List Word) :
    (s.withStoredWords a ws).lines = s.lines := (withStoredWords_fields ws s a).2.2.2.2.2.2.1
@[simp] theorem withStoredWords_freeCtr (s : State) (a : Word) (ws : List Word) :
    (s.withStoredWords a ws).freeCtr = s.freeCtr := (withStoredWords_fields ws s a).2.2.2.2.2.2.2.1
@[simp] theorem withStoredWords_platform (s : State) (a : Word) (ws : List Word) :
    (s.withStoredWords a ws).platform = s.platform := (withStoredWords_fields ws s a).2.2.2.2.2.2.2.2

/-- Stepping from a word of a block to the next. -/
theorem block_address (a : Word) (j : Nat) :
    a + 4 + BitVec.ofNat 32 (4 * j) = a + BitVec.ofNat 32 (4 * (j + 1)) := by
  rw [BitVec.add_assoc]
  congr 1
  apply BitVec.eq_of_toNat_eq
  simp only [BitVec.toNat_add, BitVec.toNat_ofNat, show (4 : Word).toNat = 4 from rfl]
  omega

/-- A run of word reads gives its values where each word is readable. -/
theorem loadWords_ok (v : Privilege) (ws : List Word) : ∀ (s : State) (a : Word),
    (∀ j (h : j < ws.length), s.readable v 4 (a + BitVec.ofNat 32 (4 * j)) ws[j]) →
    s.loadWords v a ws.length = .ok ws := by
  induction ws with
  | nil => intro s a _; rfl
  | cons w ws ih =>
    intro s a h
    have h0 := load_ok.2 (h 0 (by simp))
    simp only [Nat.mul_zero, BitVec.add_zero, List.getElem_cons_zero] at h0
    have h1 := ih s (a + 4) (fun j hj => by
      have := h (j + 1) (by simpa using hj)
      rw [block_address]
      simpa using this)
    simp only [List.length_cons, State.loadWords, h0, h1]

theorem loadBlock_ok {s : State} {a : Word} {ws : List Word} (h : s.readableBlock a ws) :
    s.loadBlock a ws.length = .ok ws := by
  unfold State.loadBlock
  rw [crossesTop_false.2 h.1]
  exact loadWords_ok _ _ _ _ h.2

/-- A run of word writes is done where each word is writable. -/
theorem storeWords_ok (v : Privilege) (ws : List Word) : ∀ (s : State) (a : Word),
    (∀ j < ws.length, s.writable v 4 (a + BitVec.ofNat 32 (4 * j))) →
    s.storeWords v a ws = .ok (s.withStoredWords a ws) := by
  induction ws with
  | nil => intro s a _; rfl
  | cons w ws ih =>
    intro s a h
    have h0 := h 0 (by simp)
    simp only [Nat.mul_zero, BitVec.add_zero] at h0
    have h0' := (store_ok (w := w)).2 ⟨h0, rfl⟩
    have h1 := ih (s.withStored 4 a w) (a + 4) (fun j hj => by
      have := h (j + 1) (by simpa using hj)
      rw [block_address]
      exact this)
    simp only [State.storeWords, h0', h1, State.withStoredWords]

theorem storeBlock_ok {s : State} {a : Word} {ws : List Word} (h : s.writableBlock a ws.length) :
    s.storeBlock a ws = .ok (s.withStoredWords a ws) := by
  unfold State.storeBlock
  rw [crossesTop_false.2 h.1]
  exact storeWords_ok _ _ _ _ h.2

/-- A run of word reads that answers gives one value for each word, each of them readable. -/
theorem loadWords_length {v : Privilege} (k : Nat) : ∀ {s : State} {a : Word} {ws : List Word},
    s.loadWords v a k = .ok ws → ws.length = k := by
  induction k with
  | zero => intro s a ws h; simp only [State.loadWords, Access.ok.injEq] at h; simp [← h]
  | succ k ih =>
    intro s a ws h
    simp only [State.loadWords] at h
    split at h <;> try cases h
    split at h <;> cases h
    next h' => simp [ih h']

/-- A run of word writes that is done is the storing of the words, each of them writable. -/
theorem storeWords_next {v : Privilege} (ws : List Word) : ∀ {s t : State} {a : Word},
    s.storeWords v a ws = .ok t →
      t = s.withStoredWords a ws ∧ ∀ j < ws.length, s.writable v 4 (a + BitVec.ofNat 32 (4 * j)) := by
  induction ws with
  | nil =>
    intro s t a h
    simp only [State.storeWords, Access.ok.injEq] at h
    exact ⟨h.symm, fun j hj => absurd hj (Nat.not_lt_zero j)⟩
  | cons w ws ih =>
    intro s t a h
    simp only [State.storeWords] at h
    split at h <;> try cases h
    next s' hs =>
      obtain ⟨hw, rfl⟩ := store_ok.1 hs
      split at h <;> cases h
      next h' =>
        obtain ⟨ht, hj⟩ := ih h'
        refine ⟨ht, fun j hlt => ?_⟩
        cases j with
        | zero => simpa using hw
        | succ j =>
          have := hj j (by simpa using hlt)
          rw [block_address] at this
          exact this

/-- Which of `k + 1` accesses is the first to fail, from which of the `k` after the first is. -/
theorem first_failure {p q : Nat → Prop} {k d : Nat} :
    (d < k + 1 ∧ ¬p d ∧ ∀ j < d, q j) ↔
      (d = 0 ∧ ¬p 0) ∨ (q 0 ∧ ∃ e, d = e + 1 ∧ e < k ∧ ¬p (e + 1) ∧ ∀ j < e, q (j + 1)) := by
  cases d with
  | zero => simp
  | succ e =>
    simp only [Nat.add_lt_add_iff_right, Nat.add_eq_zero_iff, one_ne_zero, and_false, false_and, false_or,
      Nat.add_right_cancel_iff, exists_eq_left']
    constructor
    · exact fun ⟨h1, h2, h3⟩ => ⟨h3 0 (Nat.succ_pos e), h1, h2, fun j hj => h3 (j + 1) (Nat.succ_lt_succ hj)⟩
    · refine fun ⟨h0, h1, h2, h3⟩ => ⟨h1, h2, fun j hj => ?_⟩
      cases j with
      | zero => exact h0
      | succ j => exact h3 j (Nat.lt_of_succ_lt_succ hj)

/-- The address of a word above the first of a run that does not cross the top. -/
theorem next_word_toNat {a : Word} {k : Nat} (h : a.toNat + 4 * (k + 1 + 1) ≤ 2 ^ 32) :
    (a + 4).toNat + 4 * (k + 1) ≤ 2 ^ 32 := by
  rw [BitVec.toNat_add, show (4 : Word).toNat = 4 from rfl, Nat.mod_eq_of_lt (by omega)]
  omega

/-- A run of word reads that does not cross the top aborts at the first word that is not let through, the words before it
having values. -/
theorem loadWords_abort {s : State} {v : Privilege} (k : Nat) : ∀ {a : Word} {d : Nat}, a.toNat + 4 * k ≤ 2 ^ 32 →
    (s.loadWords v a k = .abort d ↔
      d < k ∧ ¬s.reachable v .read 4 (a + BitVec.ofNat 32 (4 * d)) ∧
        ∀ j < d, ∃ w, s.readable v 4 (a + BitVec.ofNat 32 (4 * j)) w) := by
  induction k with
  | zero => intro a d _; simp [State.loadWords]
  | succ k ih =>
    intro a d ha
    rw [first_failure (p := fun j => s.reachable v .read 4 (a + BitVec.ofNat 32 (4 * j)))
      (q := fun j => ∃ w, s.readable v 4 (a + BitVec.ofNat 32 (4 * j)) w)]
    simp only [Nat.mul_zero, BitVec.add_zero, ← block_address, State.loadWords]
    have habort := fun d' => load_abort (s := s) (v := v) (n := 4) (d := d') (a := a)
    have hok := fun w => load_ok (s := s) (v := v) (n := 4) (a := a) (w := w)
    cases hl : s.load v 4 a with
    | abort e =>
      obtain ⟨_, hr, rfl⟩ := (habort e).1 hl
      have : ¬∃ w, s.readable v 4 a w := fun ⟨w, hw⟩ => hr hw.1
      simp [hr, this, eq_comm]
    | fault f =>
      have hr : s.reachable v .read 4 a := by
        by_contra hr
        have := (habort 0).2 ⟨by omega, hr, rfl⟩
        rw [hl] at this
        cases this
      have : ¬∃ w, s.readable v 4 a w := fun ⟨w, hw⟩ => by
        have := (hok w).2 hw
        rw [hl] at this
        cases this
      simp [hr, this]
    | ok w =>
      have hw := (hok w).1 hl
      have hex : ∃ w, s.readable v 4 a w := ⟨w, hw⟩
      simp only [hw.1, not_true_eq_false, and_false, false_or, hex, true_and]
      cases k with
      | zero => simp [State.loadWords]
      | succ k =>
        have ih' := fun e => ih (a := a + 4) (d := e) (next_word_toNat ha)
        simp only [← ih']
        cases s.loadWords v (a + 4) (k + 1) <;> simp [eq_comm]

/-- A run of word writes that does not cross the top aborts at the first word that is not let through. -/
theorem storeWords_abort {v : Privilege} (ws : List Word) : ∀ {s : State} {a : Word} {d : Nat},
    a.toNat + 4 * ws.length ≤ 2 ^ 32 →
    (s.storeWords v a ws = .abort d ↔
      d < ws.length ∧ ¬s.writable v 4 (a + BitVec.ofNat 32 (4 * d)) ∧
        ∀ j < d, s.writable v 4 (a + BitVec.ofNat 32 (4 * j))) := by
  induction ws with
  | nil => intro s a d _; simp [State.storeWords]
  | cons w ws ih =>
    intro s a d ha
    rw [List.length_cons, first_failure (p := fun j => s.writable v 4 (a + BitVec.ofNat 32 (4 * j)))
      (q := fun j => s.writable v 4 (a + BitVec.ofNat 32 (4 * j)))]
    simp only [Nat.mul_zero, BitVec.add_zero, ← block_address, State.storeWords]
    cases hl : s.store v 4 a w with
    | abort e =>
      obtain ⟨_, hr, rfl⟩ := store_abort.1 hl
      have hr : ¬s.writable v 4 a := hr
      simp [hr, eq_comm]
    | fault f =>
      have := (store_fault.1 hl).1
      rw [List.length_cons] at ha
      omega
    | ok s' =>
      obtain ⟨hw, rfl⟩ := store_ok.1 hl
      simp only [hw, not_true_eq_false, and_false, false_or, true_and]
      cases ws with
      | nil => simp [State.storeWords]
      | cons w' ws =>
        have ih' : ∀ e, _ := fun e => ih (s := s.withStored 4 a w) (a := a + 4) (d := e) (next_word_toNat ha)
        change ∀ e, (_ ↔ _ ∧ ¬s.writable v 4 _ ∧ ∀ j < e, s.writable v 4 _) at ih'
        simp only [← ih']
        cases (s.withStored 4 a w).storeWords v (a + 4) (w' :: ws) <;> simp [eq_comm]

/-- A block of words crosses the top, or is read to its end, or aborts where `State.abortsAt` says. -/
theorem loadBlock_abort {s : State} {a : Word} {k d : Nat} : s.loadBlock a k = .abort d ↔ s.abortsAt .read a k d := by
  unfold State.loadBlock State.abortsAt
  cases h : crossesTop a (4 * k) with
  | true =>
    have := crossesTop_true.1 h
    simp only [if_true, reduceCtorEq, false_iff]
    omega
  | false =>
    have := crossesTop_false.1 h
    rw [if_neg (by simp), loadWords_abort k this]
    have : ∀ j, (∃ w, s.readable s.privilege 4 (a + BitVec.ofNat 32 (4 * j)) w) →
        s.reachable s.privilege .read 4 (a + BitVec.ofNat 32 (4 * j)) := fun j ⟨w, hw⟩ => hw.1
    exact ⟨fun ⟨h1, h2, h3⟩ => ⟨by assumption, h1, h2, fun j hj => ⟨this j (h3 j hj), fun _ => h3 j hj⟩⟩,
      fun ⟨_, h1, h2, h3⟩ => ⟨h1, h2, fun j hj => (h3 j hj).2 rfl⟩⟩

theorem storeBlock_abort {s : State} {a : Word} {ws : List Word} {d : Nat} :
    s.storeBlock a ws = .abort d ↔ s.abortsAt .write a ws.length d := by
  unfold State.storeBlock State.abortsAt
  cases h : crossesTop a (4 * ws.length) with
  | true =>
    have := crossesTop_true.1 h
    simp only [if_true, reduceCtorEq, false_iff]
    omega
  | false =>
    have := crossesTop_false.1 h
    rw [if_neg (by simp), storeWords_abort ws this]
    exact ⟨fun ⟨h1, h2, h3⟩ => ⟨by assumption, h1, h2, fun j hj => ⟨h3 j hj, fun e => (nomatch e)⟩⟩,
      fun ⟨_, h1, h2, h3⟩ => ⟨h1, h2, fun j hj => (h3 j hj).1⟩⟩

/-- A run of word writes faults only where one crosses the top. -/
theorem storeWords_fault {v : Privilege} (ws : List Word) : ∀ {s : State} {a : Word} {f : Fault},
    s.storeWords v a ws = .fault f → f = .addressWrap := by
  induction ws with
  | nil => intro s a f h; cases h
  | cons w ws ih =>
    intro s a f h
    simp only [State.storeWords] at h
    split at h <;> try cases h
    · next hs => exact (store_fault.1 hs).2
    · split at h <;> cases h
      next h' => exact ih h'

/-- How an instruction goes on after a load: with its value, or with the entry of a Data Abort. -/
theorem afterLoad_next {α : Type} {s t : State} {r : Access α} {k : α → Out} :
    afterLoad s r k = .next t ↔
      (∃ a, r = .ok a ∧ k a = .next t) ∨ (∃ d, r = .abort d) ∧ t = takeException .dataAbort s := by
  cases r with
  | ok a => simp [afterLoad]
  | abort d => simp [afterLoad, raise_next]
  | fault f => simp [afterLoad]

theorem afterStore_next {s t : State} {a : Word} {r : Access State} {k : State → Out} :
    afterStore s a r k = .next t ↔
      (∃ u, r = .ok u ∧ k u = .next t) ∨ ∃ d, r = .abort d ∧ t = takeException .dataAbort (s.freeWords a d) := by
  cases r with
  | ok a => simp [afterStore]
  | abort d => simp [afterStore, raise_next]
  | fault f => simp [afterStore]

/-- Words that have become unknown: nothing but memory, the written addresses and the count of free values differs. -/
theorem freeWords_fields (k : Nat) : ∀ (s : State) (a : Word),
    let t := s.freeWords a k
    t.gpr = s.gpr ∧ t.pc = s.pc ∧ t.cpsr = s.cpsr ∧ t.spsr = s.spsr ∧ t.monitor = s.monitor ∧ t.coprocs = s.coprocs ∧
      t.lines = s.lines ∧ t.platform = s.platform := by
  induction k with
  | zero => intro s a; simp [State.freeWords]
  | succ k ih => intro s a; exact ih ((s.putBytes 4 a s.freeValue).drawn) (a + 4)

/-- Registers that have become unknown: nothing but registers and the count of free values differs. -/
theorem freeRegs_fields (m : Mode) (rs : List Reg) : ∀ s : State,
    let t := s.freeRegs m rs
    t.pc = s.pc ∧ t.cpsr = s.cpsr ∧ t.spsr = s.spsr ∧ t.monitor = s.monitor ∧ t.mem = s.mem ∧ t.written = s.written ∧
      t.coprocs = s.coprocs ∧ t.lines = s.lines ∧ t.platform = s.platform := by
  induction rs with
  | nil => intro s; simp [State.freeRegs]
  | cons r rs ih => intro s; exact ih ((s.setRegOf m r s.freeValue).drawn)

/-- Only the named registers become unknown. -/
theorem freeRegs_gpr_other (m : Mode) (rs : List Reg) (k : Fin 30) (h : ∀ r ∈ rs, r ≠ 15 → k ≠ cell m r) :
    ∀ s : State, (s.freeRegs m rs).gpr.get k = s.gpr.get k := by
  induction rs with
  | nil => intro s; rfl
  | cons r rs ih =>
    intro s
    rw [State.freeRegs, ih (fun r hr => h r (List.mem_cons_of_mem _ hr))]
    by_cases h15 : r = 15
    · subst h15; rfl
    · show (s.setRegOf m r s.freeValue).gpr.get k = _
      rw [setRegOf_gpr _ _ _ _ h15, get_set_other _ _ _ _ (h r (List.mem_cons_self ..) h15)]

/-- A register that has become unknown holds one of the free values drawn for it. -/
theorem freeRegs_gpr_mem (m : Mode) (rs : List Reg) : ∀ (s : State) (r : Reg), r ∈ rs → r ≠ 15 →
    ∃ n, s.freeCtr ≤ n ∧ n < (s.freeRegs m rs).freeCtr ∧
      (s.freeRegs m rs).gpr.get (cell m r) = Config.freeWord n := by
  induction rs with
  | nil => intro s r h; cases h
  | cons q rs ih =>
    intro s r h h15
    have hc : ∀ (rs : List Reg) (u : State), (u.freeRegs m rs).freeCtr = u.freeCtr + rs.length := by
      intro rs
      induction rs with
      | nil => intro u; rfl
      | cons q rs ih => intro u; rw [State.freeRegs, ih]; simp [State.drawn, State.setRegOf]; omega
    by_cases hr : ∃ p ∈ rs, p ≠ 15 ∧ cell m p = cell m r
    · obtain ⟨p, hp, hp15, hpr⟩ := hr
      obtain ⟨n, h1, h2, h3⟩ := ih ((s.setRegOf m q s.freeValue).drawn) p hp hp15
      refine ⟨n, ?_, h2, by rw [← hpr]; exact h3⟩
      exact Nat.le_of_succ_le h1
    · have hq : r = q := (List.mem_cons.1 h).resolve_right (fun h' => hr ⟨r, h', h15, rfl⟩)
      subst hq
      refine ⟨s.freeCtr, Nat.le_refl _, by rw [hc]; simp, ?_⟩
      rw [State.freeRegs, freeRegs_gpr_other _ _ _ (fun p hp hp15 e => hr ⟨p, hp, hp15, e.symm⟩)]
      show (s.setRegOf m r s.freeValue).gpr.get _ = _
      rw [setRegOf_gpr _ _ _ _ h15]
      simp [State.freeValue]

/-- An aborted load of several registers takes the Data Abort, with the loaded ones unknown, but for the base register. -/
theorem abortedLoad_aborted (s : State) (m : Mode) (base : Reg) (loaded : List Reg) :
    LoadAborted s m base loaded (abortedLoad s m base loaded) := by
  have hin : ∀ r : Reg, s.notBase m base r = true ↔ (base ≠ 15 → cell m r ≠ cell s.mode base) := by
    intro r
    simp only [State.notBase, Bool.or_eq_true, beq_iff_eq, bne_iff_ne, ne_eq]
    tauto
  generalize hrs : loaded.filter (fun r => r != 15 && s.notBase m base r) = rs
  have hf := freeRegs_fields m rs s
  refine ⟨(s.freeRegs m rs).gpr, (s.freeRegs m rs).freeCtr, ?_, ?_, ?_⟩
  · unfold abortedLoad raise
    rw [hrs]
    congr 2
    obtain ⟨h1, h2, h3, h4, h5, h6, h7, h8, h9⟩ := hf
    rw [← h1, ← h2, ← h3, ← h4, ← h5, ← h6, ← h7, ← h8, ← h9]
  · intro r hr h15 hb
    refine freeRegs_gpr_mem m rs s r ?_ h15
    rw [← hrs, List.mem_filter]
    exact ⟨hr, by rw [Bool.and_eq_true, bne_iff_ne]; exact ⟨h15, (hin r).2 hb⟩⟩
  · intro k hk
    refine freeRegs_gpr_other m rs k (fun r hr h15 e => ?_) s
    rw [← hrs, List.mem_filter] at hr
    obtain ⟨hl, hr⟩ := hr
    simp only [Bool.and_eq_true] at hr
    rcases hk with hk | ⟨hb, hk⟩
    · exact hk r hl h15 e
    · exact (hin r).1 hr.2 hb (e.symm.trans hk)

/-- Words of memory that have become unknown: each holds a free value and counts as written; outside them memory is as it
was. -/
theorem freeWords_mem (k : Nat) : ∀ (s : State) (a : Word), a.toNat + 4 * k ≤ 2 ^ 32 →
    let t := s.freeWords a k
    s.freeCtr ≤ t.freeCtr ∧
    (∀ x, (x < a.toNat ∨ a.toNat + 4 * k ≤ x) → t.mem.read x = s.mem.read x ∧ (x ∈ t.written ↔ x ∈ s.written)) ∧
    (∀ x, a.toNat ≤ x → x < a.toNat + 4 * k → x ∈ t.written) ∧
    ∀ j < k, ∃ n, s.freeCtr ≤ n ∧ n < t.freeCtr ∧
      t.mem.readBytes (a.toNat + 4 * j) 4 = some (disassemble s.e 4 (Config.freeWord n)) := by
  induction k with
  | zero => intro s a _; exact ⟨Nat.le_refl _, fun x _ => ⟨rfl, Iff.rfl⟩, by omega, by omega⟩
  | succ k ih =>
    intro s a ha
    rw [State.freeWords]
    generalize hu : (s.putBytes 4 a s.freeValue).drawn = u
    have hctr : u.freeCtr = s.freeCtr + 1 := by rw [← hu]; rfl
    have hmem : u.mem = s.mem.writeBytes a.toNat (disassemble s.e 4 s.freeValue) := by rw [← hu]; rfl
    have hwr : u.written = addAddrs s.written a.toNat 4 := by rw [← hu]; rfl
    have he : u.e = s.e := by rw [← hu]; rfl
    rcases Nat.eq_zero_or_pos k with rfl | hk
    · simp only [State.freeWords, hctr, hmem, hwr]
      refine ⟨by omega, fun x hx => ⟨?_, ?_⟩, fun x h1 h2 => ?_, fun j hj => ⟨s.freeCtr, Nat.le_refl _, by omega, ?_⟩⟩
      · exact read_writeBytes_outside _ _ _ _ (by rw [disassemble_length]; omega)
      · rw [mem_addAddrs]; constructor
        · rintro (h | h)
          · omega
          · exact h
        · exact Or.inr
      · rw [mem_addAddrs]; left; omega
      · obtain rfl : j = 0 := by omega
        exact readBytes_writeBytes_same _ _ _ (by simp)
    · have hn : (a + 4).toNat = a.toNat + 4 := by
        rw [BitVec.toNat_add, show (4 : Word).toNat = 4 from rfl, Nat.mod_eq_of_lt (by omega)]
      obtain ⟨h1, h2, h3, h4⟩ := ih u (a + 4) (by omega)
      rw [hn] at h2 h3 h4
      refine ⟨by omega, fun x hx => ?_, fun x hx1 hx2 => ?_, fun j hj => ?_⟩
      · obtain ⟨g1, g2⟩ := h2 x (by omega)
        rw [g1, g2, hmem, hwr, mem_addAddrs]
        refine ⟨read_writeBytes_outside _ _ _ _ (by rw [disassemble_length]; omega), ?_⟩
        constructor
        · rintro (h | h)
          · omega
          · exact h
        · exact Or.inr
      · by_cases hx : x < a.toNat + 4
        · rw [(h2 x (Or.inl hx)).2, hwr, mem_addAddrs]; left; omega
        · exact h3 x (by omega) (by omega)
      · cases j with
        | zero =>
          refine ⟨s.freeCtr, Nat.le_refl _, by omega, ?_⟩
          rw [readBytes_congr 4 _ (fun i hi => (h2 (a.toNat + 4 * 0 + i) (by omega)).1), hmem]
          exact readBytes_writeBytes_same _ _ _ (by simp)
        | succ j =>
          obtain ⟨n, g1, g2, g3⟩ := h4 j (by omega)
          refine ⟨n, by omega, g2, ?_⟩
          rw [show a.toNat + 4 * (j + 1) = a.toNat + 4 + 4 * j by omega, g3, he]

/-! ### Several registers -/

/-- Writing registers: nothing but registers differs. -/
theorem setRegsOf_fields (m : Mode) (rs : List Reg) : ∀ (s : State) (vs : List Word),
    let t := s.setRegsOf m rs vs
    t.pc = s.pc ∧ t.cpsr = s.cpsr ∧ t.spsr = s.spsr ∧ t.monitor = s.monitor ∧ t.mem = s.mem ∧ t.written = s.written ∧
      t.coprocs = s.coprocs ∧ t.lines = s.lines ∧ t.freeCtr = s.freeCtr ∧ t.platform = s.platform := by
  induction rs with
  | nil => intro s vs; simp [State.setRegsOf]
  | cons r rs ih =>
    intro s vs
    cases vs with
    | nil => simp [State.setRegsOf]
    | cons v vs => exact ih (s.setRegOf m r v) vs

theorem setRegsOf_gpr_other (m : Mode) (rs : List Reg) (k : Fin 30) (h : ∀ r ∈ rs, r ≠ 15 → k ≠ cell m r) :
    ∀ (s : State) (vs : List Word), (s.setRegsOf m rs vs).gpr.get k = s.gpr.get k := by
  induction rs with
  | nil => intro s vs; simp [State.setRegsOf]
  | cons r rs ih =>
    intro s vs
    cases vs with
    | nil => simp [State.setRegsOf]
    | cons v vs =>
      rw [State.setRegsOf, ih (fun r hr => h r (List.mem_cons_of_mem _ hr))]
      by_cases h15 : r = 15
      · subst h15; rfl
      · rw [setRegOf_gpr _ _ _ _ h15, get_set_other _ _ _ _ (h r (List.mem_cons_self ..) h15)]

/-! ### Coprocessors, the step -/

/-- An instruction offered to a coprocessor: accepted, it goes on with the answer; otherwise the Undefined Instruction
exception is taken. -/
theorem offer_next {cp : CpField} {word : Word} {s t : State} {k : CpReply → Out} :
    offer cp word s k = .next t ↔
      (∃ r, s.cpReply cp word = some r ∧ k r = .next t) ∨
      (s.cpReply cp word = none ∧ t = takeException .undefinedInstruction s) := by
  unfold offer
  cases h : s.cpReply cp word with
  | none => simp [raise_next]
  | some r => simp

theorem offer_accept {cp : CpField} {word : Word} {s : State} {r : CpReply} (k : CpReply → Out)
    (h : s.cpReply cp word = some r) : offer cp word s k = k r := by
  simp [offer, h]

theorem offer_reject {cp : CpField} {word : Word} {s : State} (k : CpReply → Out) (h : s.cpReply cp word = none) :
    offer cp word s k = raise .undefinedInstruction s := by
  simp [offer, h]

/-- A coprocessor accepts a word exactly where a line of its table of `Accepts` covers it. -/
theorem takes_iff {p : Coproc} {word : Word} {v : Privilege} :
    p.takes word v = true ↔
      ∃ a ∈ p.accepts, word &&& a.key.mask = a.key.pattern ∧
        (a.key.state = none ∨ a.key.state = some p.history) ∧ a.priv = v := by
  simp [Coproc.takes, CpKey.covers, and_assoc]

/-- A coprocessor has no answer exactly where it is absent or does not accept the word. -/
theorem cpReply_none {s : State} {cp : CpField} {word : Word} :
    s.cpReply cp word = none ↔ ∀ p, s.coprocs.get (cpIndex cp) = some p → p.takes word s.privilege = false := by
  unfold State.cpReply
  cases h : s.coprocs.get (cpIndex cp) with
  | none => simp
  | some p => cases h' : p.takes word s.privilege <;> simp [h']

/-- A coprocessor that accepts a word answers with its oracle's values. -/
theorem cpReply_some {s : State} {cp : CpField} {word : Word} {r : CpReply} :
    s.cpReply cp word = some r ↔
      ∃ p, s.coprocs.get (cpIndex cp) = some p ∧ p.takes word s.privilege = true ∧ p.reply word = r := by
  unfold State.cpReply
  cases h : s.coprocs.get (cpIndex cp) with
  | none => simp
  | some p => cases h' : p.takes word s.privilege <;> simp [h']

/-- Everything a step can do when it answers. -/
theorem step_next {s t : State} (h : step s = .next t) :
    (∃ k, s.interrupt = some k ∧ t = takeException k s.tick) ∨
    (s.interrupt = none ∧ s.t = false ∧ s.j = false ∧
      ((s.fetch = .abort ∧ t = takeException .prefetchAbort s.tick) ∨
        ∃ w, s.fetch = .word w ∧
          ((∃ i, decodeWord w = .instr i ∧ exec i s.tick = .next t) ∨
            (decodeWord w = .undefined ∧ t = takeException .undefinedInstruction s.tick) ∨
            advance s.tick = .next t))) := by
  unfold step at h
  cases hi : s.interrupt with
  | some k => rw [hi] at h; exact .inl ⟨k, rfl, raise_next.1 h⟩
  | none =>
    rw [hi] at h
    refine .inr ⟨rfl, ?_⟩
    unfold fetchAndExecute at h
    split_ifs at h with ht hj
    refine ⟨Bool.eq_false_iff.2 ht, Bool.eq_false_iff.2 hj, ?_⟩
    change (match s.fetch with
      | .word w => execWord w s.tick
      | .abort => raise .prefetchAbort s.tick
      | .written => .refused .fetchWritten
      | .unwritten => .fault .unwrittenMemory) = _ at h
    cases hf : s.fetch with
    | abort => rw [hf] at h; exact .inl ⟨rfl, raise_next.1 h⟩
    | written => rw [hf] at h; cases h
    | unwritten => rw [hf] at h; cases h
    | word w =>
      rw [hf] at h
      refine .inr ⟨w, rfl, ?_⟩
      replace h : execWord w s.tick = .next t := h
      unfold execWord at h
      cases hd : decodeWord w with
      | instr i => rw [hd] at h; exact .inl ⟨i, rfl, h⟩
      | undefined =>
        rw [hd] at h
        replace h : whenWordCond w s.tick (raise .undefinedInstruction s.tick) = .next t := h
        unfold whenWordCond at h
        split_ifs at h
        · exact .inr (.inl ⟨rfl, raise_next.1 h⟩)
        · rcases whenCond_next.1 h with ⟨_, h⟩ | ⟨_, h⟩
          · exact .inr (.inl ⟨rfl, raise_next.1 h⟩)
          · exact .inr (.inr h)
      | unpredictable =>
        rw [hd] at h
        replace h : whenWordCond w s.tick (.fault .unpredictableEncoding) = .next t := h
        unfold whenWordCond at h
        split_ifs at h
        rcases whenCond_next.1 h with ⟨_, h⟩ | ⟨_, h⟩
        · cases h
        · exact .inr (.inr h)

end Sys2Proof.Laws
end

