-- ==== Sys2Proof/Laws/PerInstr.lean ====
section
/-! SUPPORT. The lemmas made per instruction: the encoding of an instruction is a proper word of the instruction's own row of
the opcode table, and that row reads the instruction back from it. -/
set_option linter.unusedSimpArgs false
set_option maxRecDepth 4000
set_option Elab.async false
namespace Sys2Proof.Laws

/-- The row of the table with the number of the instruction's constructor. -/
def rowOf (i : Instr) : Option Row := table[i.ctorIdx]?

/-- A row accepts the word of an instruction as its own and reads the instruction back. -/
def OwnRow (r : Row) (i : Instr) : Prop :=
  r.accepts (encode i) = true ∧ r.proper (encode i) = true ∧ r.build (encode i) = i

/-- A well-formed instruction is encoded in its own row. -/
def RoundTrip.Statement (i : Instr) : Prop := i.wf = true → ∃ r, rowOf i = some r ∧ OwnRow r i

theorem RoundTrip.andShift (c s rn rd imm5 ty rm) : RoundTrip.Statement (.andShift c s rn rd imm5 ty rm) := by
  intro h
  refine ⟨_, rfl, ?_, ?_, ?_⟩
  · simp (disch := first | decide | assumption) [Row.accepts, encode, flag, or_and_mask, place_and_zero, condF, cond_place_ne, postW, noPUW, field12Ones, field16Ones, place_one, place_zero, IndexMode.p, IndexMode.w, BlockMode.p, BlockMode.u, place16_ne, place12_ne]
  · simp (disch := decide) [Row.proper, encode, flag, or_and_mask, place_and_zero, postW, noPUW, place_one, place_zero, IndexMode.p, IndexMode.w, BlockMode.p, BlockMode.u]
  · simp (disch := decide) [encode, flag, field_or, bitAt_or, field_place_same, field_place_disjoint, bitAt_place_same, bitAt_place_disjoint, cond_ofCode_code, shift_ofCode_code, indexMode_of, blockMode_of, join8, join16, field_lit, bitAt_lit]

theorem RoundTrip.andReg (c s rn rd rs ty rm) : RoundTrip.Statement (.andReg c s rn rd rs ty rm) := by
  intro h
  refine ⟨_, rfl, ?_, ?_, ?_⟩
  · simp (disch := first | decide | assumption) [Row.accepts, encode, flag, or_and_mask, place_and_zero, condF, cond_place_ne, postW, noPUW, field12Ones, field16Ones, place_one, place_zero, IndexMode.p, IndexMode.w, BlockMode.p, BlockMode.u, place16_ne, place12_ne]
  · simp (disch := decide) [Row.proper, encode, flag, or_and_mask, place_and_zero, postW, noPUW, place_one, place_zero, IndexMode.p, IndexMode.w, BlockMode.p, BlockMode.u]
  · simp (disch := decide) [encode, flag, field_or, bitAt_or, field_place_same, field_place_disjoint, bitAt_place_same, bitAt_place_disjoint, cond_ofCode_code, shift_ofCode_code, indexMode_of, blockMode_of, join8, join16, field_lit, bitAt_lit]

theorem RoundTrip.andImm (c s rn rd rot imm8) : RoundTrip.Statement (.andImm c s rn rd rot imm8) := by
  intro h
  refine ⟨_, rfl, ?_, ?_, ?_⟩
  · simp (disch := first | decide | assumption) [Row.accepts, encode, flag, or_and_mask, place_and_zero, condF, cond_place_ne, postW, noPUW, field12Ones, field16Ones, place_one, place_zero, IndexMode.p, IndexMode.w, BlockMode.p, BlockMode.u, place16_ne, place12_ne]
  · simp (disch := decide) [Row.proper, encode, flag, or_and_mask, place_and_zero, postW, noPUW, place_one, place_zero, IndexMode.p, IndexMode.w, BlockMode.p, BlockMode.u]
  · simp (disch := decide) [encode, flag, field_or, bitAt_or, field_place_same, field_place_disjoint, bitAt_place_same, bitAt_place_disjoint, cond_ofCode_code, shift_ofCode_code, indexMode_of, blockMode_of, join8, join16, field_lit, bitAt_lit]

theorem RoundTrip.eorShift (c s rn rd imm5 ty rm) : RoundTrip.Statement (.eorShift c s rn rd imm5 ty rm) := by
  intro h
  refine ⟨_, rfl, ?_, ?_, ?_⟩
  · simp (disch := first | decide | assumption) [Row.accepts, encode, flag, or_and_mask, place_and_zero, condF, cond_place_ne, postW, noPUW, field12Ones, field16Ones, place_one, place_zero, IndexMode.p, IndexMode.w, BlockMode.p, BlockMode.u, place16_ne, place12_ne]
  · simp (disch := decide) [Row.proper, encode, flag, or_and_mask, place_and_zero, postW, noPUW, place_one, place_zero, IndexMode.p, IndexMode.w, BlockMode.p, BlockMode.u]
  · simp (disch := decide) [encode, flag, field_or, bitAt_or, field_place_same, field_place_disjoint, bitAt_place_same, bitAt_place_disjoint, cond_ofCode_code, shift_ofCode_code, indexMode_of, blockMode_of, join8, join16, field_lit, bitAt_lit]

theorem RoundTrip.eorReg (c s rn rd rs ty rm) : RoundTrip.Statement (.eorReg c s rn rd rs ty rm) := by
  intro h
  refine ⟨_, rfl, ?_, ?_, ?_⟩
  · simp (disch := first | decide | assumption) [Row.accepts, encode, flag, or_and_mask, place_and_zero, condF, cond_place_ne, postW, noPUW, field12Ones, field16Ones, place_one, place_zero, IndexMode.p, IndexMode.w, BlockMode.p, BlockMode.u, place16_ne, place12_ne]
  · simp (disch := decide) [Row.proper, encode, flag, or_and_mask, place_and_zero, postW, noPUW, place_one, place_zero, IndexMode.p, IndexMode.w, BlockMode.p, BlockMode.u]
  · simp (disch := decide) [encode, flag, field_or, bitAt_or, field_place_same, field_place_disjoint, bitAt_place_same, bitAt_place_disjoint, cond_ofCode_code, shift_ofCode_code, indexMode_of, blockMode_of, join8, join16, field_lit, bitAt_lit]

theorem RoundTrip.eorImm (c s rn rd rot imm8) : RoundTrip.Statement (.eorImm c s rn rd rot imm8) := by
  intro h
  refine ⟨_, rfl, ?_, ?_, ?_⟩
  · simp (disch := first | decide | assumption) [Row.accepts, encode, flag, or_and_mask, place_and_zero, condF, cond_place_ne, postW, noPUW, field12Ones, field16Ones, place_one, place_zero, IndexMode.p, IndexMode.w, BlockMode.p, BlockMode.u, place16_ne, place12_ne]
  · simp (disch := decide) [Row.proper, encode, flag, or_and_mask, place_and_zero, postW, noPUW, place_one, place_zero, IndexMode.p, IndexMode.w, BlockMode.p, BlockMode.u]
  · simp (disch := decide) [encode, flag, field_or, bitAt_or, field_place_same, field_place_disjoint, bitAt_place_same, bitAt_place_disjoint, cond_ofCode_code, shift_ofCode_code, indexMode_of, blockMode_of, join8, join16, field_lit, bitAt_lit]

theorem RoundTrip.subShift (c s rn rd imm5 ty rm) : RoundTrip.Statement (.subShift c s rn rd imm5 ty rm) := by
  intro h
  refine ⟨_, rfl, ?_, ?_, ?_⟩
  · simp (disch := first | decide | assumption) [Row.accepts, encode, flag, or_and_mask, place_and_zero, condF, cond_place_ne, postW, noPUW, field12Ones, field16Ones, place_one, place_zero, IndexMode.p, IndexMode.w, BlockMode.p, BlockMode.u, place16_ne, place12_ne]
  · simp (disch := decide) [Row.proper, encode, flag, or_and_mask, place_and_zero, postW, noPUW, place_one, place_zero, IndexMode.p, IndexMode.w, BlockMode.p, BlockMode.u]
  · simp (disch := decide) [encode, flag, field_or, bitAt_or, field_place_same, field_place_disjoint, bitAt_place_same, bitAt_place_disjoint, cond_ofCode_code, shift_ofCode_code, indexMode_of, blockMode_of, join8, join16, field_lit, bitAt_lit]

theorem RoundTrip.subReg (c s rn rd rs ty rm) : RoundTrip.Statement (.subReg c s rn rd rs ty rm) := by
  intro h
  refine ⟨_, rfl, ?_, ?_, ?_⟩
  · simp (disch := first | decide | assumption) [Row.accepts, encode, flag, or_and_mask, place_and_zero, condF, cond_place_ne, postW, noPUW, field12Ones, field16Ones, place_one, place_zero, IndexMode.p, IndexMode.w, BlockMode.p, BlockMode.u, place16_ne, place12_ne]
  · simp (disch := decide) [Row.proper, encode, flag, or_and_mask, place_and_zero, postW, noPUW, place_one, place_zero, IndexMode.p, IndexMode.w, BlockMode.p, BlockMode.u]
  · simp (disch := decide) [encode, flag, field_or, bitAt_or, field_place_same, field_place_disjoint, bitAt_place_same, bitAt_place_disjoint, cond_ofCode_code, shift_ofCode_code, indexMode_of, blockMode_of, join8, join16, field_lit, bitAt_lit]

theorem RoundTrip.subImm (c s rn rd rot imm8) : RoundTrip.Statement (.subImm c s rn rd rot imm8) := by
  intro h
  refine ⟨_, rfl, ?_, ?_, ?_⟩
  · simp (disch := first | decide | assumption) [Row.accepts, encode, flag, or_and_mask, place_and_zero, condF, cond_place_ne, postW, noPUW, field12Ones, field16Ones, place_one, place_zero, IndexMode.p, IndexMode.w, BlockMode.p, BlockMode.u, place16_ne, place12_ne]
  · simp (disch := decide) [Row.proper, encode, flag, or_and_mask, place_and_zero, postW, noPUW, place_one, place_zero, IndexMode.p, IndexMode.w, BlockMode.p, BlockMode.u]
  · simp (disch := decide) [encode, flag, field_or, bitAt_or, field_place_same, field_place_disjoint, bitAt_place_same, bitAt_place_disjoint, cond_ofCode_code, shift_ofCode_code, indexMode_of, blockMode_of, join8, join16, field_lit, bitAt_lit]

theorem RoundTrip.rsbShift (c s rn rd imm5 ty rm) : RoundTrip.Statement (.rsbShift c s rn rd imm5 ty rm) := by
  intro h
  refine ⟨_, rfl, ?_, ?_, ?_⟩
  · simp (disch := first | decide | assumption) [Row.accepts, encode, flag, or_and_mask, place_and_zero, condF, cond_place_ne, postW, noPUW, field12Ones, field16Ones, place_one, place_zero, IndexMode.p, IndexMode.w, BlockMode.p, BlockMode.u, place16_ne, place12_ne]
  · simp (disch := decide) [Row.proper, encode, flag, or_and_mask, place_and_zero, postW, noPUW, place_one, place_zero, IndexMode.p, IndexMode.w, BlockMode.p, BlockMode.u]
  · simp (disch := decide) [encode, flag, field_or, bitAt_or, field_place_same, field_place_disjoint, bitAt_place_same, bitAt_place_disjoint, cond_ofCode_code, shift_ofCode_code, indexMode_of, blockMode_of, join8, join16, field_lit, bitAt_lit]

theorem RoundTrip.rsbReg (c s rn rd rs ty rm) : RoundTrip.Statement (.rsbReg c s rn rd rs ty rm) := by
  intro h
  refine ⟨_, rfl, ?_, ?_, ?_⟩
  · simp (disch := first | decide | assumption) [Row.accepts, encode, flag, or_and_mask, place_and_zero, condF, cond_place_ne, postW, noPUW, field12Ones, field16Ones, place_one, place_zero, IndexMode.p, IndexMode.w, BlockMode.p, BlockMode.u, place16_ne, place12_ne]
  · simp (disch := decide) [Row.proper, encode, flag, or_and_mask, place_and_zero, postW, noPUW, place_one, place_zero, IndexMode.p, IndexMode.w, BlockMode.p, BlockMode.u]
  · simp (disch := decide) [encode, flag, field_or, bitAt_or, field_place_same, field_place_disjoint, bitAt_place_same, bitAt_place_disjoint, cond_ofCode_code, shift_ofCode_code, indexMode_of, blockMode_of, join8, join16, field_lit, bitAt_lit]

theorem RoundTrip.rsbImm (c s rn rd rot imm8) : RoundTrip.Statement (.rsbImm c s rn rd rot imm8) := by
  intro h
  refine ⟨_, rfl, ?_, ?_, ?_⟩
  · simp (disch := first | decide | assumption) [Row.accepts, encode, flag, or_and_mask, place_and_zero, condF, cond_place_ne, postW, noPUW, field12Ones, field16Ones, place_one, place_zero, IndexMode.p, IndexMode.w, BlockMode.p, BlockMode.u, place16_ne, place12_ne]
  · simp (disch := decide) [Row.proper, encode, flag, or_and_mask, place_and_zero, postW, noPUW, place_one, place_zero, IndexMode.p, IndexMode.w, BlockMode.p, BlockMode.u]
  · simp (disch := decide) [encode, flag, field_or, bitAt_or, field_place_same, field_place_disjoint, bitAt_place_same, bitAt_place_disjoint, cond_ofCode_code, shift_ofCode_code, indexMode_of, blockMode_of, join8, join16, field_lit, bitAt_lit]

theorem RoundTrip.addShift (c s rn rd imm5 ty rm) : RoundTrip.Statement (.addShift c s rn rd imm5 ty rm) := by
  intro h
  refine ⟨_, rfl, ?_, ?_, ?_⟩
  · simp (disch := first | decide | assumption) [Row.accepts, encode, flag, or_and_mask, place_and_zero, condF, cond_place_ne, postW, noPUW, field12Ones, field16Ones, place_one, place_zero, IndexMode.p, IndexMode.w, BlockMode.p, BlockMode.u, place16_ne, place12_ne]
  · simp (disch := decide) [Row.proper, encode, flag, or_and_mask, place_and_zero, postW, noPUW, place_one, place_zero, IndexMode.p, IndexMode.w, BlockMode.p, BlockMode.u]
  · simp (disch := decide) [encode, flag, field_or, bitAt_or, field_place_same, field_place_disjoint, bitAt_place_same, bitAt_place_disjoint, cond_ofCode_code, shift_ofCode_code, indexMode_of, blockMode_of, join8, join16, field_lit, bitAt_lit]

theorem RoundTrip.addReg (c s rn rd rs ty rm) : RoundTrip.Statement (.addReg c s rn rd rs ty rm) := by
  intro h
  refine ⟨_, rfl, ?_, ?_, ?_⟩
  · simp (disch := first | decide | assumption) [Row.accepts, encode, flag, or_and_mask, place_and_zero, condF, cond_place_ne, postW, noPUW, field12Ones, field16Ones, place_one, place_zero, IndexMode.p, IndexMode.w, BlockMode.p, BlockMode.u, place16_ne, place12_ne]
  · simp (disch := decide) [Row.proper, encode, flag, or_and_mask, place_and_zero, postW, noPUW, place_one, place_zero, IndexMode.p, IndexMode.w, BlockMode.p, BlockMode.u]
  · simp (disch := decide) [encode, flag, field_or, bitAt_or, field_place_same, field_place_disjoint, bitAt_place_same, bitAt_place_disjoint, cond_ofCode_code, shift_ofCode_code, indexMode_of, blockMode_of, join8, join16, field_lit, bitAt_lit]

theorem RoundTrip.addImm (c s rn rd rot imm8) : RoundTrip.Statement (.addImm c s rn rd rot imm8) := by
  intro h
  refine ⟨_, rfl, ?_, ?_, ?_⟩
  · simp (disch := first | decide | assumption) [Row.accepts, encode, flag, or_and_mask, place_and_zero, condF, cond_place_ne, postW, noPUW, field12Ones, field16Ones, place_one, place_zero, IndexMode.p, IndexMode.w, BlockMode.p, BlockMode.u, place16_ne, place12_ne]
  · simp (disch := decide) [Row.proper, encode, flag, or_and_mask, place_and_zero, postW, noPUW, place_one, place_zero, IndexMode.p, IndexMode.w, BlockMode.p, BlockMode.u]
  · simp (disch := decide) [encode, flag, field_or, bitAt_or, field_place_same, field_place_disjoint, bitAt_place_same, bitAt_place_disjoint, cond_ofCode_code, shift_ofCode_code, indexMode_of, blockMode_of, join8, join16, field_lit, bitAt_lit]

theorem RoundTrip.adcShift (c s rn rd imm5 ty rm) : RoundTrip.Statement (.adcShift c s rn rd imm5 ty rm) := by
  intro h
  refine ⟨_, rfl, ?_, ?_, ?_⟩
  · simp (disch := first | decide | assumption) [Row.accepts, encode, flag, or_and_mask, place_and_zero, condF, cond_place_ne, postW, noPUW, field12Ones, field16Ones, place_one, place_zero, IndexMode.p, IndexMode.w, BlockMode.p, BlockMode.u, place16_ne, place12_ne]
  · simp (disch := decide) [Row.proper, encode, flag, or_and_mask, place_and_zero, postW, noPUW, place_one, place_zero, IndexMode.p, IndexMode.w, BlockMode.p, BlockMode.u]
  · simp (disch := decide) [encode, flag, field_or, bitAt_or, field_place_same, field_place_disjoint, bitAt_place_same, bitAt_place_disjoint, cond_ofCode_code, shift_ofCode_code, indexMode_of, blockMode_of, join8, join16, field_lit, bitAt_lit]

theorem RoundTrip.adcReg (c s rn rd rs ty rm) : RoundTrip.Statement (.adcReg c s rn rd rs ty rm) := by
  intro h
  refine ⟨_, rfl, ?_, ?_, ?_⟩
  · simp (disch := first | decide | assumption) [Row.accepts, encode, flag, or_and_mask, place_and_zero, condF, cond_place_ne, postW, noPUW, field12Ones, field16Ones, place_one, place_zero, IndexMode.p, IndexMode.w, BlockMode.p, BlockMode.u, place16_ne, place12_ne]
  · simp (disch := decide) [Row.proper, encode, flag, or_and_mask, place_and_zero, postW, noPUW, place_one, place_zero, IndexMode.p, IndexMode.w, BlockMode.p, BlockMode.u]
  · simp (disch := decide) [encode, flag, field_or, bitAt_or, field_place_same, field_place_disjoint, bitAt_place_same, bitAt_place_disjoint, cond_ofCode_code, shift_ofCode_code, indexMode_of, blockMode_of, join8, join16, field_lit, bitAt_lit]

theorem RoundTrip.adcImm (c s rn rd rot imm8) : RoundTrip.Statement (.adcImm c s rn rd rot imm8) := by
  intro h
  refine ⟨_, rfl, ?_, ?_, ?_⟩
  · simp (disch := first | decide | assumption) [Row.accepts, encode, flag, or_and_mask, place_and_zero, condF, cond_place_ne, postW, noPUW, field12Ones, field16Ones, place_one, place_zero, IndexMode.p, IndexMode.w, BlockMode.p, BlockMode.u, place16_ne, place12_ne]
  · simp (disch := decide) [Row.proper, encode, flag, or_and_mask, place_and_zero, postW, noPUW, place_one, place_zero, IndexMode.p, IndexMode.w, BlockMode.p, BlockMode.u]
  · simp (disch := decide) [encode, flag, field_or, bitAt_or, field_place_same, field_place_disjoint, bitAt_place_same, bitAt_place_disjoint, cond_ofCode_code, shift_ofCode_code, indexMode_of, blockMode_of, join8, join16, field_lit, bitAt_lit]

theorem RoundTrip.sbcShift (c s rn rd imm5 ty rm) : RoundTrip.Statement (.sbcShift c s rn rd imm5 ty rm) := by
  intro h
  refine ⟨_, rfl, ?_, ?_, ?_⟩
  · simp (disch := first | decide | assumption) [Row.accepts, encode, flag, or_and_mask, place_and_zero, condF, cond_place_ne, postW, noPUW, field12Ones, field16Ones, place_one, place_zero, IndexMode.p, IndexMode.w, BlockMode.p, BlockMode.u, place16_ne, place12_ne]
  · simp (disch := decide) [Row.proper, encode, flag, or_and_mask, place_and_zero, postW, noPUW, place_one, place_zero, IndexMode.p, IndexMode.w, BlockMode.p, BlockMode.u]
  · simp (disch := decide) [encode, flag, field_or, bitAt_or, field_place_same, field_place_disjoint, bitAt_place_same, bitAt_place_disjoint, cond_ofCode_code, shift_ofCode_code, indexMode_of, blockMode_of, join8, join16, field_lit, bitAt_lit]

theorem RoundTrip.sbcReg (c s rn rd rs ty rm) : RoundTrip.Statement (.sbcReg c s rn rd rs ty rm) := by
  intro h
  refine ⟨_, rfl, ?_, ?_, ?_⟩
  · simp (disch := first | decide | assumption) [Row.accepts, encode, flag, or_and_mask, place_and_zero, condF, cond_place_ne, postW, noPUW, field12Ones, field16Ones, place_one, place_zero, IndexMode.p, IndexMode.w, BlockMode.p, BlockMode.u, place16_ne, place12_ne]
  · simp (disch := decide) [Row.proper, encode, flag, or_and_mask, place_and_zero, postW, noPUW, place_one, place_zero, IndexMode.p, IndexMode.w, BlockMode.p, BlockMode.u]
  · simp (disch := decide) [encode, flag, field_or, bitAt_or, field_place_same, field_place_disjoint, bitAt_place_same, bitAt_place_disjoint, cond_ofCode_code, shift_ofCode_code, indexMode_of, blockMode_of, join8, join16, field_lit, bitAt_lit]

theorem RoundTrip.sbcImm (c s rn rd rot imm8) : RoundTrip.Statement (.sbcImm c s rn rd rot imm8) := by
  intro h
  refine ⟨_, rfl, ?_, ?_, ?_⟩
  · simp (disch := first | decide | assumption) [Row.accepts, encode, flag, or_and_mask, place_and_zero, condF, cond_place_ne, postW, noPUW, field12Ones, field16Ones, place_one, place_zero, IndexMode.p, IndexMode.w, BlockMode.p, BlockMode.u, place16_ne, place12_ne]
  · simp (disch := decide) [Row.proper, encode, flag, or_and_mask, place_and_zero, postW, noPUW, place_one, place_zero, IndexMode.p, IndexMode.w, BlockMode.p, BlockMode.u]
  · simp (disch := decide) [encode, flag, field_or, bitAt_or, field_place_same, field_place_disjoint, bitAt_place_same, bitAt_place_disjoint, cond_ofCode_code, shift_ofCode_code, indexMode_of, blockMode_of, join8, join16, field_lit, bitAt_lit]

theorem RoundTrip.rscShift (c s rn rd imm5 ty rm) : RoundTrip.Statement (.rscShift c s rn rd imm5 ty rm) := by
  intro h
  refine ⟨_, rfl, ?_, ?_, ?_⟩
  · simp (disch := first | decide | assumption) [Row.accepts, encode, flag, or_and_mask, place_and_zero, condF, cond_place_ne, postW, noPUW, field12Ones, field16Ones, place_one, place_zero, IndexMode.p, IndexMode.w, BlockMode.p, BlockMode.u, place16_ne, place12_ne]
  · simp (disch := decide) [Row.proper, encode, flag, or_and_mask, place_and_zero, postW, noPUW, place_one, place_zero, IndexMode.p, IndexMode.w, BlockMode.p, BlockMode.u]
  · simp (disch := decide) [encode, flag, field_or, bitAt_or, field_place_same, field_place_disjoint, bitAt_place_same, bitAt_place_disjoint, cond_ofCode_code, shift_ofCode_code, indexMode_of, blockMode_of, join8, join16, field_lit, bitAt_lit]

theorem RoundTrip.rscReg (c s rn rd rs ty rm) : RoundTrip.Statement (.rscReg c s rn rd rs ty rm) := by
  intro h
  refine ⟨_, rfl, ?_, ?_, ?_⟩
  · simp (disch := first | decide | assumption) [Row.accepts, encode, flag, or_and_mask, place_and_zero, condF, cond_place_ne, postW, noPUW, field12Ones, field16Ones, place_one, place_zero, IndexMode.p, IndexMode.w, BlockMode.p, BlockMode.u, place16_ne, place12_ne]
  · simp (disch := decide) [Row.proper, encode, flag, or_and_mask, place_and_zero, postW, noPUW, place_one, place_zero, IndexMode.p, IndexMode.w, BlockMode.p, BlockMode.u]
  · simp (disch := decide) [encode, flag, field_or, bitAt_or, field_place_same, field_place_disjoint, bitAt_place_same, bitAt_place_disjoint, cond_ofCode_code, shift_ofCode_code, indexMode_of, blockMode_of, join8, join16, field_lit, bitAt_lit]

theorem RoundTrip.rscImm (c s rn rd rot imm8) : RoundTrip.Statement (.rscImm c s rn rd rot imm8) := by
  intro h
  refine ⟨_, rfl, ?_, ?_, ?_⟩
  · simp (disch := first | decide | assumption) [Row.accepts, encode, flag, or_and_mask, place_and_zero, condF, cond_place_ne, postW, noPUW, field12Ones, field16Ones, place_one, place_zero, IndexMode.p, IndexMode.w, BlockMode.p, BlockMode.u, place16_ne, place12_ne]
  · simp (disch := decide) [Row.proper, encode, flag, or_and_mask, place_and_zero, postW, noPUW, place_one, place_zero, IndexMode.p, IndexMode.w, BlockMode.p, BlockMode.u]
  · simp (disch := decide) [encode, flag, field_or, bitAt_or, field_place_same, field_place_disjoint, bitAt_place_same, bitAt_place_disjoint, cond_ofCode_code, shift_ofCode_code, indexMode_of, blockMode_of, join8, join16, field_lit, bitAt_lit]

theorem RoundTrip.tstShift (c rn imm5 ty rm) : RoundTrip.Statement (.tstShift c rn imm5 ty rm) := by
  intro h
  refine ⟨_, rfl, ?_, ?_, ?_⟩
  · simp (disch := first | decide | assumption) [Row.accepts, encode, flag, or_and_mask, place_and_zero, condF, cond_place_ne, postW, noPUW, field12Ones, field16Ones, place_one, place_zero, IndexMode.p, IndexMode.w, BlockMode.p, BlockMode.u, place16_ne, place12_ne]
  · simp (disch := decide) [Row.proper, encode, flag, or_and_mask, place_and_zero, postW, noPUW, place_one, place_zero, IndexMode.p, IndexMode.w, BlockMode.p, BlockMode.u]
  · simp (disch := decide) [encode, flag, field_or, bitAt_or, field_place_same, field_place_disjoint, bitAt_place_same, bitAt_place_disjoint, cond_ofCode_code, shift_ofCode_code, indexMode_of, blockMode_of, join8, join16, field_lit, bitAt_lit]

theorem RoundTrip.tstReg (c rn rs ty rm) : RoundTrip.Statement (.tstReg c rn rs ty rm) := by
  intro h
  refine ⟨_, rfl, ?_, ?_, ?_⟩
  · simp (disch := first | decide | assumption) [Row.accepts, encode, flag, or_and_mask, place_and_zero, condF, cond_place_ne, postW, noPUW, field12Ones, field16Ones, place_one, place_zero, IndexMode.p, IndexMode.w, BlockMode.p, BlockMode.u, place16_ne, place12_ne]
  · simp (disch := decide) [Row.proper, encode, flag, or_and_mask, place_and_zero, postW, noPUW, place_one, place_zero, IndexMode.p, IndexMode.w, BlockMode.p, BlockMode.u]
  · simp (disch := decide) [encode, flag, field_or, bitAt_or, field_place_same, field_place_disjoint, bitAt_place_same, bitAt_place_disjoint, cond_ofCode_code, shift_ofCode_code, indexMode_of, blockMode_of, join8, join16, field_lit, bitAt_lit]

theorem RoundTrip.tstImm (c rn rot imm8) : RoundTrip.Statement (.tstImm c rn rot imm8) := by
  intro h
  refine ⟨_, rfl, ?_, ?_, ?_⟩
  · simp (disch := first | decide | assumption) [Row.accepts, encode, flag, or_and_mask, place_and_zero, condF, cond_place_ne, postW, noPUW, field12Ones, field16Ones, place_one, place_zero, IndexMode.p, IndexMode.w, BlockMode.p, BlockMode.u, place16_ne, place12_ne]
  · simp (disch := decide) [Row.proper, encode, flag, or_and_mask, place_and_zero, postW, noPUW, place_one, place_zero, IndexMode.p, IndexMode.w, BlockMode.p, BlockMode.u]
  · simp (disch := decide) [encode, flag, field_or, bitAt_or, field_place_same, field_place_disjoint, bitAt_place_same, bitAt_place_disjoint, cond_ofCode_code, shift_ofCode_code, indexMode_of, blockMode_of, join8, join16, field_lit, bitAt_lit]

theorem RoundTrip.teqShift (c rn imm5 ty rm) : RoundTrip.Statement (.teqShift c rn imm5 ty rm) := by
  intro h
  refine ⟨_, rfl, ?_, ?_, ?_⟩
  · simp (disch := first | decide | assumption) [Row.accepts, encode, flag, or_and_mask, place_and_zero, condF, cond_place_ne, postW, noPUW, field12Ones, field16Ones, place_one, place_zero, IndexMode.p, IndexMode.w, BlockMode.p, BlockMode.u, place16_ne, place12_ne]
  · simp (disch := decide) [Row.proper, encode, flag, or_and_mask, place_and_zero, postW, noPUW, place_one, place_zero, IndexMode.p, IndexMode.w, BlockMode.p, BlockMode.u]
  · simp (disch := decide) [encode, flag, field_or, bitAt_or, field_place_same, field_place_disjoint, bitAt_place_same, bitAt_place_disjoint, cond_ofCode_code, shift_ofCode_code, indexMode_of, blockMode_of, join8, join16, field_lit, bitAt_lit]

theorem RoundTrip.teqReg (c rn rs ty rm) : RoundTrip.Statement (.teqReg c rn rs ty rm) := by
  intro h
  refine ⟨_, rfl, ?_, ?_, ?_⟩
  · simp (disch := first | decide | assumption) [Row.accepts, encode, flag, or_and_mask, place_and_zero, condF, cond_place_ne, postW, noPUW, field12Ones, field16Ones, place_one, place_zero, IndexMode.p, IndexMode.w, BlockMode.p, BlockMode.u, place16_ne, place12_ne]
  · simp (disch := decide) [Row.proper, encode, flag, or_and_mask, place_and_zero, postW, noPUW, place_one, place_zero, IndexMode.p, IndexMode.w, BlockMode.p, BlockMode.u]
  · simp (disch := decide) [encode, flag, field_or, bitAt_or, field_place_same, field_place_disjoint, bitAt_place_same, bitAt_place_disjoint, cond_ofCode_code, shift_ofCode_code, indexMode_of, blockMode_of, join8, join16, field_lit, bitAt_lit]

theorem RoundTrip.teqImm (c rn rot imm8) : RoundTrip.Statement (.teqImm c rn rot imm8) := by
  intro h
  refine ⟨_, rfl, ?_, ?_, ?_⟩
  · simp (disch := first | decide | assumption) [Row.accepts, encode, flag, or_and_mask, place_and_zero, condF, cond_place_ne, postW, noPUW, field12Ones, field16Ones, place_one, place_zero, IndexMode.p, IndexMode.w, BlockMode.p, BlockMode.u, place16_ne, place12_ne]
  · simp (disch := decide) [Row.proper, encode, flag, or_and_mask, place_and_zero, postW, noPUW, place_one, place_zero, IndexMode.p, IndexMode.w, BlockMode.p, BlockMode.u]
  · simp (disch := decide) [encode, flag, field_or, bitAt_or, field_place_same, field_place_disjoint, bitAt_place_same, bitAt_place_disjoint, cond_ofCode_code, shift_ofCode_code, indexMode_of, blockMode_of, join8, join16, field_lit, bitAt_lit]

theorem RoundTrip.cmpShift (c rn imm5 ty rm) : RoundTrip.Statement (.cmpShift c rn imm5 ty rm) := by
  intro h
  refine ⟨_, rfl, ?_, ?_, ?_⟩
  · simp (disch := first | decide | assumption) [Row.accepts, encode, flag, or_and_mask, place_and_zero, condF, cond_place_ne, postW, noPUW, field12Ones, field16Ones, place_one, place_zero, IndexMode.p, IndexMode.w, BlockMode.p, BlockMode.u, place16_ne, place12_ne]
  · simp (disch := decide) [Row.proper, encode, flag, or_and_mask, place_and_zero, postW, noPUW, place_one, place_zero, IndexMode.p, IndexMode.w, BlockMode.p, BlockMode.u]
  · simp (disch := decide) [encode, flag, field_or, bitAt_or, field_place_same, field_place_disjoint, bitAt_place_same, bitAt_place_disjoint, cond_ofCode_code, shift_ofCode_code, indexMode_of, blockMode_of, join8, join16, field_lit, bitAt_lit]

theorem RoundTrip.cmpReg (c rn rs ty rm) : RoundTrip.Statement (.cmpReg c rn rs ty rm) := by
  intro h
  refine ⟨_, rfl, ?_, ?_, ?_⟩
  · simp (disch := first | decide | assumption) [Row.accepts, encode, flag, or_and_mask, place_and_zero, condF, cond_place_ne, postW, noPUW, field12Ones, field16Ones, place_one, place_zero, IndexMode.p, IndexMode.w, BlockMode.p, BlockMode.u, place16_ne, place12_ne]
  · simp (disch := decide) [Row.proper, encode, flag, or_and_mask, place_and_zero, postW, noPUW, place_one, place_zero, IndexMode.p, IndexMode.w, BlockMode.p, BlockMode.u]
  · simp (disch := decide) [encode, flag, field_or, bitAt_or, field_place_same, field_place_disjoint, bitAt_place_same, bitAt_place_disjoint, cond_ofCode_code, shift_ofCode_code, indexMode_of, blockMode_of, join8, join16, field_lit, bitAt_lit]

theorem RoundTrip.cmpImm (c rn rot imm8) : RoundTrip.Statement (.cmpImm c rn rot imm8) := by
  intro h
  refine ⟨_, rfl, ?_, ?_, ?_⟩
  · simp (disch := first | decide | assumption) [Row.accepts, encode, flag, or_and_mask, place_and_zero, condF, cond_place_ne, postW, noPUW, field12Ones, field16Ones, place_one, place_zero, IndexMode.p, IndexMode.w, BlockMode.p, BlockMode.u, place16_ne, place12_ne]
  · simp (disch := decide) [Row.proper, encode, flag, or_and_mask, place_and_zero, postW, noPUW, place_one, place_zero, IndexMode.p, IndexMode.w, BlockMode.p, BlockMode.u]
  · simp (disch := decide) [encode, flag, field_or, bitAt_or, field_place_same, field_place_disjoint, bitAt_place_same, bitAt_place_disjoint, cond_ofCode_code, shift_ofCode_code, indexMode_of, blockMode_of, join8, join16, field_lit, bitAt_lit]

theorem RoundTrip.cmnShift (c rn imm5 ty rm) : RoundTrip.Statement (.cmnShift c rn imm5 ty rm) := by
  intro h
  refine ⟨_, rfl, ?_, ?_, ?_⟩
  · simp (disch := first | decide | assumption) [Row.accepts, encode, flag, or_and_mask, place_and_zero, condF, cond_place_ne, postW, noPUW, field12Ones, field16Ones, place_one, place_zero, IndexMode.p, IndexMode.w, BlockMode.p, BlockMode.u, place16_ne, place12_ne]
  · simp (disch := decide) [Row.proper, encode, flag, or_and_mask, place_and_zero, postW, noPUW, place_one, place_zero, IndexMode.p, IndexMode.w, BlockMode.p, BlockMode.u]
  · simp (disch := decide) [encode, flag, field_or, bitAt_or, field_place_same, field_place_disjoint, bitAt_place_same, bitAt_place_disjoint, cond_ofCode_code, shift_ofCode_code, indexMode_of, blockMode_of, join8, join16, field_lit, bitAt_lit]

theorem RoundTrip.cmnReg (c rn rs ty rm) : RoundTrip.Statement (.cmnReg c rn rs ty rm) := by
  intro h
  refine ⟨_, rfl, ?_, ?_, ?_⟩
  · simp (disch := first | decide | assumption) [Row.accepts, encode, flag, or_and_mask, place_and_zero, condF, cond_place_ne, postW, noPUW, field12Ones, field16Ones, place_one, place_zero, IndexMode.p, IndexMode.w, BlockMode.p, BlockMode.u, place16_ne, place12_ne]
  · simp (disch := decide) [Row.proper, encode, flag, or_and_mask, place_and_zero, postW, noPUW, place_one, place_zero, IndexMode.p, IndexMode.w, BlockMode.p, BlockMode.u]
  · simp (disch := decide) [encode, flag, field_or, bitAt_or, field_place_same, field_place_disjoint, bitAt_place_same, bitAt_place_disjoint, cond_ofCode_code, shift_ofCode_code, indexMode_of, blockMode_of, join8, join16, field_lit, bitAt_lit]

theorem RoundTrip.cmnImm (c rn rot imm8) : RoundTrip.Statement (.cmnImm c rn rot imm8) := by
  intro h
  refine ⟨_, rfl, ?_, ?_, ?_⟩
  · simp (disch := first | decide | assumption) [Row.accepts, encode, flag, or_and_mask, place_and_zero, condF, cond_place_ne, postW, noPUW, field12Ones, field16Ones, place_one, place_zero, IndexMode.p, IndexMode.w, BlockMode.p, BlockMode.u, place16_ne, place12_ne]
  · simp (disch := decide) [Row.proper, encode, flag, or_and_mask, place_and_zero, postW, noPUW, place_one, place_zero, IndexMode.p, IndexMode.w, BlockMode.p, BlockMode.u]
  · simp (disch := decide) [encode, flag, field_or, bitAt_or, field_place_same, field_place_disjoint, bitAt_place_same, bitAt_place_disjoint, cond_ofCode_code, shift_ofCode_code, indexMode_of, blockMode_of, join8, join16, field_lit, bitAt_lit]

theorem RoundTrip.orrShift (c s rn rd imm5 ty rm) : RoundTrip.Statement (.orrShift c s rn rd imm5 ty rm) := by
  intro h
  refine ⟨_, rfl, ?_, ?_, ?_⟩
  · simp (disch := first | decide | assumption) [Row.accepts, encode, flag, or_and_mask, place_and_zero, condF, cond_place_ne, postW, noPUW, field12Ones, field16Ones, place_one, place_zero, IndexMode.p, IndexMode.w, BlockMode.p, BlockMode.u, place16_ne, place12_ne]
  · simp (disch := decide) [Row.proper, encode, flag, or_and_mask, place_and_zero, postW, noPUW, place_one, place_zero, IndexMode.p, IndexMode.w, BlockMode.p, BlockMode.u]
  · simp (disch := decide) [encode, flag, field_or, bitAt_or, field_place_same, field_place_disjoint, bitAt_place_same, bitAt_place_disjoint, cond_ofCode_code, shift_ofCode_code, indexMode_of, blockMode_of, join8, join16, field_lit, bitAt_lit]

theorem RoundTrip.orrReg (c s rn rd rs ty rm) : RoundTrip.Statement (.orrReg c s rn rd rs ty rm) := by
  intro h
  refine ⟨_, rfl, ?_, ?_, ?_⟩
  · simp (disch := first | decide | assumption) [Row.accepts, encode, flag, or_and_mask, place_and_zero, condF, cond_place_ne, postW, noPUW, field12Ones, field16Ones, place_one, place_zero, IndexMode.p, IndexMode.w, BlockMode.p, BlockMode.u, place16_ne, place12_ne]
  · simp (disch := decide) [Row.proper, encode, flag, or_and_mask, place_and_zero, postW, noPUW, place_one, place_zero, IndexMode.p, IndexMode.w, BlockMode.p, BlockMode.u]
  · simp (disch := decide) [encode, flag, field_or, bitAt_or, field_place_same, field_place_disjoint, bitAt_place_same, bitAt_place_disjoint, cond_ofCode_code, shift_ofCode_code, indexMode_of, blockMode_of, join8, join16, field_lit, bitAt_lit]

theorem RoundTrip.orrImm (c s rn rd rot imm8) : RoundTrip.Statement (.orrImm c s rn rd rot imm8) := by
  intro h
  refine ⟨_, rfl, ?_, ?_, ?_⟩
  · simp (disch := first | decide | assumption) [Row.accepts, encode, flag, or_and_mask, place_and_zero, condF, cond_place_ne, postW, noPUW, field12Ones, field16Ones, place_one, place_zero, IndexMode.p, IndexMode.w, BlockMode.p, BlockMode.u, place16_ne, place12_ne]
  · simp (disch := decide) [Row.proper, encode, flag, or_and_mask, place_and_zero, postW, noPUW, place_one, place_zero, IndexMode.p, IndexMode.w, BlockMode.p, BlockMode.u]
  · simp (disch := decide) [encode, flag, field_or, bitAt_or, field_place_same, field_place_disjoint, bitAt_place_same, bitAt_place_disjoint, cond_ofCode_code, shift_ofCode_code, indexMode_of, blockMode_of, join8, join16, field_lit, bitAt_lit]

theorem RoundTrip.movShift (c s rd imm5 ty rm) : RoundTrip.Statement (.movShift c s rd imm5 ty rm) := by
  intro h
  refine ⟨_, rfl, ?_, ?_, ?_⟩
  · simp (disch := first | decide | assumption) [Row.accepts, encode, flag, or_and_mask, place_and_zero, condF, cond_place_ne, postW, noPUW, field12Ones, field16Ones, place_one, place_zero, IndexMode.p, IndexMode.w, BlockMode.p, BlockMode.u, place16_ne, place12_ne]
  · simp (disch := decide) [Row.proper, encode, flag, or_and_mask, place_and_zero, postW, noPUW, place_one, place_zero, IndexMode.p, IndexMode.w, BlockMode.p, BlockMode.u]
  · simp (disch := decide) [encode, flag, field_or, bitAt_or, field_place_same, field_place_disjoint, bitAt_place_same, bitAt_place_disjoint, cond_ofCode_code, shift_ofCode_code, indexMode_of, blockMode_of, join8, join16, field_lit, bitAt_lit]

theorem RoundTrip.movReg (c s rd rs ty rm) : RoundTrip.Statement (.movReg c s rd rs ty rm) := by
  intro h
  refine ⟨_, rfl, ?_, ?_, ?_⟩
  · simp (disch := first | decide | assumption) [Row.accepts, encode, flag, or_and_mask, place_and_zero, condF, cond_place_ne, postW, noPUW, field12Ones, field16Ones, place_one, place_zero, IndexMode.p, IndexMode.w, BlockMode.p, BlockMode.u, place16_ne, place12_ne]
  · simp (disch := decide) [Row.proper, encode, flag, or_and_mask, place_and_zero, postW, noPUW, place_one, place_zero, IndexMode.p, IndexMode.w, BlockMode.p, BlockMode.u]
  · simp (disch := decide) [encode, flag, field_or, bitAt_or, field_place_same, field_place_disjoint, bitAt_place_same, bitAt_place_disjoint, cond_ofCode_code, shift_ofCode_code, indexMode_of, blockMode_of, join8, join16, field_lit, bitAt_lit]

theorem RoundTrip.movImm (c s rd rot imm8) : RoundTrip.Statement (.movImm c s rd rot imm8) := by
  intro h
  refine ⟨_, rfl, ?_, ?_, ?_⟩
  · simp (disch := first | decide | assumption) [Row.accepts, encode, flag, or_and_mask, place_and_zero, condF, cond_place_ne, postW, noPUW, field12Ones, field16Ones, place_one, place_zero, IndexMode.p, IndexMode.w, BlockMode.p, BlockMode.u, place16_ne, place12_ne]
  · simp (disch := decide) [Row.proper, encode, flag, or_and_mask, place_and_zero, postW, noPUW, place_one, place_zero, IndexMode.p, IndexMode.w, BlockMode.p, BlockMode.u]
  · simp (disch := decide) [encode, flag, field_or, bitAt_or, field_place_same, field_place_disjoint, bitAt_place_same, bitAt_place_disjoint, cond_ofCode_code, shift_ofCode_code, indexMode_of, blockMode_of, join8, join16, field_lit, bitAt_lit]

theorem RoundTrip.bicShift (c s rn rd imm5 ty rm) : RoundTrip.Statement (.bicShift c s rn rd imm5 ty rm) := by
  intro h
  refine ⟨_, rfl, ?_, ?_, ?_⟩
  · simp (disch := first | decide | assumption) [Row.accepts, encode, flag, or_and_mask, place_and_zero, condF, cond_place_ne, postW, noPUW, field12Ones, field16Ones, place_one, place_zero, IndexMode.p, IndexMode.w, BlockMode.p, BlockMode.u, place16_ne, place12_ne]
  · simp (disch := decide) [Row.proper, encode, flag, or_and_mask, place_and_zero, postW, noPUW, place_one, place_zero, IndexMode.p, IndexMode.w, BlockMode.p, BlockMode.u]
  · simp (disch := decide) [encode, flag, field_or, bitAt_or, field_place_same, field_place_disjoint, bitAt_place_same, bitAt_place_disjoint, cond_ofCode_code, shift_ofCode_code, indexMode_of, blockMode_of, join8, join16, field_lit, bitAt_lit]

theorem RoundTrip.bicReg (c s rn rd rs ty rm) : RoundTrip.Statement (.bicReg c s rn rd rs ty rm) := by
  intro h
  refine ⟨_, rfl, ?_, ?_, ?_⟩
  · simp (disch := first | decide | assumption) [Row.accepts, encode, flag, or_and_mask, place_and_zero, condF, cond_place_ne, postW, noPUW, field12Ones, field16Ones, place_one, place_zero, IndexMode.p, IndexMode.w, BlockMode.p, BlockMode.u, place16_ne, place12_ne]
  · simp (disch := decide) [Row.proper, encode, flag, or_and_mask, place_and_zero, postW, noPUW, place_one, place_zero, IndexMode.p, IndexMode.w, BlockMode.p, BlockMode.u]
  · simp (disch := decide) [encode, flag, field_or, bitAt_or, field_place_same, field_place_disjoint, bitAt_place_same, bitAt_place_disjoint, cond_ofCode_code, shift_ofCode_code, indexMode_of, blockMode_of, join8, join16, field_lit, bitAt_lit]

theorem RoundTrip.bicImm (c s rn rd rot imm8) : RoundTrip.Statement (.bicImm c s rn rd rot imm8) := by
  intro h
  refine ⟨_, rfl, ?_, ?_, ?_⟩
  · simp (disch := first | decide | assumption) [Row.accepts, encode, flag, or_and_mask, place_and_zero, condF, cond_place_ne, postW, noPUW, field12Ones, field16Ones, place_one, place_zero, IndexMode.p, IndexMode.w, BlockMode.p, BlockMode.u, place16_ne, place12_ne]
  · simp (disch := decide) [Row.proper, encode, flag, or_and_mask, place_and_zero, postW, noPUW, place_one, place_zero, IndexMode.p, IndexMode.w, BlockMode.p, BlockMode.u]
  · simp (disch := decide) [encode, flag, field_or, bitAt_or, field_place_same, field_place_disjoint, bitAt_place_same, bitAt_place_disjoint, cond_ofCode_code, shift_ofCode_code, indexMode_of, blockMode_of, join8, join16, field_lit, bitAt_lit]

theorem RoundTrip.mvnShift (c s rd imm5 ty rm) : RoundTrip.Statement (.mvnShift c s rd imm5 ty rm) := by
  intro h
  refine ⟨_, rfl, ?_, ?_, ?_⟩
  · simp (disch := first | decide | assumption) [Row.accepts, encode, flag, or_and_mask, place_and_zero, condF, cond_place_ne, postW, noPUW, field12Ones, field16Ones, place_one, place_zero, IndexMode.p, IndexMode.w, BlockMode.p, BlockMode.u, place16_ne, place12_ne]
  · simp (disch := decide) [Row.proper, encode, flag, or_and_mask, place_and_zero, postW, noPUW, place_one, place_zero, IndexMode.p, IndexMode.w, BlockMode.p, BlockMode.u]
  · simp (disch := decide) [encode, flag, field_or, bitAt_or, field_place_same, field_place_disjoint, bitAt_place_same, bitAt_place_disjoint, cond_ofCode_code, shift_ofCode_code, indexMode_of, blockMode_of, join8, join16, field_lit, bitAt_lit]

theorem RoundTrip.mvnReg (c s rd rs ty rm) : RoundTrip.Statement (.mvnReg c s rd rs ty rm) := by
  intro h
  refine ⟨_, rfl, ?_, ?_, ?_⟩
  · simp (disch := first | decide | assumption) [Row.accepts, encode, flag, or_and_mask, place_and_zero, condF, cond_place_ne, postW, noPUW, field12Ones, field16Ones, place_one, place_zero, IndexMode.p, IndexMode.w, BlockMode.p, BlockMode.u, place16_ne, place12_ne]
  · simp (disch := decide) [Row.proper, encode, flag, or_and_mask, place_and_zero, postW, noPUW, place_one, place_zero, IndexMode.p, IndexMode.w, BlockMode.p, BlockMode.u]
  · simp (disch := decide) [encode, flag, field_or, bitAt_or, field_place_same, field_place_disjoint, bitAt_place_same, bitAt_place_disjoint, cond_ofCode_code, shift_ofCode_code, indexMode_of, blockMode_of, join8, join16, field_lit, bitAt_lit]

theorem RoundTrip.mvnImm (c s rd rot imm8) : RoundTrip.Statement (.mvnImm c s rd rot imm8) := by
  intro h
  refine ⟨_, rfl, ?_, ?_, ?_⟩
  · simp (disch := first | decide | assumption) [Row.accepts, encode, flag, or_and_mask, place_and_zero, condF, cond_place_ne, postW, noPUW, field12Ones, field16Ones, place_one, place_zero, IndexMode.p, IndexMode.w, BlockMode.p, BlockMode.u, place16_ne, place12_ne]
  · simp (disch := decide) [Row.proper, encode, flag, or_and_mask, place_and_zero, postW, noPUW, place_one, place_zero, IndexMode.p, IndexMode.w, BlockMode.p, BlockMode.u]
  · simp (disch := decide) [encode, flag, field_or, bitAt_or, field_place_same, field_place_disjoint, bitAt_place_same, bitAt_place_disjoint, cond_ofCode_code, shift_ofCode_code, indexMode_of, blockMode_of, join8, join16, field_lit, bitAt_lit]

theorem RoundTrip.mul (c s rd rs rm) : RoundTrip.Statement (.mul c s rd rs rm) := by
  intro h
  refine ⟨_, rfl, ?_, ?_, ?_⟩
  · simp (disch := first | decide | assumption) [Row.accepts, encode, flag, or_and_mask, place_and_zero, condF, cond_place_ne, postW, noPUW, field12Ones, field16Ones, place_one, place_zero, IndexMode.p, IndexMode.w, BlockMode.p, BlockMode.u, place16_ne, place12_ne]
  · simp (disch := decide) [Row.proper, encode, flag, or_and_mask, place_and_zero, postW, noPUW, place_one, place_zero, IndexMode.p, IndexMode.w, BlockMode.p, BlockMode.u]
  · simp (disch := decide) [encode, flag, field_or, bitAt_or, field_place_same, field_place_disjoint, bitAt_place_same, bitAt_place_disjoint, cond_ofCode_code, shift_ofCode_code, indexMode_of, blockMode_of, join8, join16, field_lit, bitAt_lit]

theorem RoundTrip.mla (c s rd rn rs rm) : RoundTrip.Statement (.mla c s rd rn rs rm) := by
  intro h
  refine ⟨_, rfl, ?_, ?_, ?_⟩
  · simp (disch := first | decide | assumption) [Row.accepts, encode, flag, or_and_mask, place_and_zero, condF, cond_place_ne, postW, noPUW, field12Ones, field16Ones, place_one, place_zero, IndexMode.p, IndexMode.w, BlockMode.p, BlockMode.u, place16_ne, place12_ne]
  · simp (disch := decide) [Row.proper, encode, flag, or_and_mask, place_and_zero, postW, noPUW, place_one, place_zero, IndexMode.p, IndexMode.w, BlockMode.p, BlockMode.u]
  · simp (disch := decide) [encode, flag, field_or, bitAt_or, field_place_same, field_place_disjoint, bitAt_place_same, bitAt_place_disjoint, cond_ofCode_code, shift_ofCode_code, indexMode_of, blockMode_of, join8, join16, field_lit, bitAt_lit]

theorem RoundTrip.umaal (c rdHi rdLo rs rm) : RoundTrip.Statement (.umaal c rdHi rdLo rs rm) := by
  intro h
  refine ⟨_, rfl, ?_, ?_, ?_⟩
  · simp (disch := first | decide | assumption) [Row.accepts, encode, flag, or_and_mask, place_and_zero, condF, cond_place_ne, postW, noPUW, field12Ones, field16Ones, place_one, place_zero, IndexMode.p, IndexMode.w, BlockMode.p, BlockMode.u, place16_ne, place12_ne]
  · simp (disch := decide) [Row.proper, encode, flag, or_and_mask, place_and_zero, postW, noPUW, place_one, place_zero, IndexMode.p, IndexMode.w, BlockMode.p, BlockMode.u]
  · simp (disch := decide) [encode, flag, field_or, bitAt_or, field_place_same, field_place_disjoint, bitAt_place_same, bitAt_place_disjoint, cond_ofCode_code, shift_ofCode_code, indexMode_of, blockMode_of, join8, join16, field_lit, bitAt_lit]

theorem RoundTrip.umull (c s rdHi rdLo rs rm) : RoundTrip.Statement (.umull c s rdHi rdLo rs rm) := by
  intro h
  refine ⟨_, rfl, ?_, ?_, ?_⟩
  · simp (disch := first | decide | assumption) [Row.accepts, encode, flag, or_and_mask, place_and_zero, condF, cond_place_ne, postW, noPUW, field12Ones, field16Ones, place_one, place_zero, IndexMode.p, IndexMode.w, BlockMode.p, BlockMode.u, place16_ne, place12_ne]
  · simp (disch := decide) [Row.proper, encode, flag, or_and_mask, place_and_zero, postW, noPUW, place_one, place_zero, IndexMode.p, IndexMode.w, BlockMode.p, BlockMode.u]
  · simp (disch := decide) [encode, flag, field_or, bitAt_or, field_place_same, field_place_disjoint, bitAt_place_same, bitAt_place_disjoint, cond_ofCode_code, shift_ofCode_code, indexMode_of, blockMode_of, join8, join16, field_lit, bitAt_lit]

theorem RoundTrip.umlal (c s rdHi rdLo rs rm) : RoundTrip.Statement (.umlal c s rdHi rdLo rs rm) := by
  intro h
  refine ⟨_, rfl, ?_, ?_, ?_⟩
  · simp (disch := first | decide | assumption) [Row.accepts, encode, flag, or_and_mask, place_and_zero, condF, cond_place_ne, postW, noPUW, field12Ones, field16Ones, place_one, place_zero, IndexMode.p, IndexMode.w, BlockMode.p, BlockMode.u, place16_ne, place12_ne]
  · simp (disch := decide) [Row.proper, encode, flag, or_and_mask, place_and_zero, postW, noPUW, place_one, place_zero, IndexMode.p, IndexMode.w, BlockMode.p, BlockMode.u]
  · simp (disch := decide) [encode, flag, field_or, bitAt_or, field_place_same, field_place_disjoint, bitAt_place_same, bitAt_place_disjoint, cond_ofCode_code, shift_ofCode_code, indexMode_of, blockMode_of, join8, join16, field_lit, bitAt_lit]

theorem RoundTrip.smull (c s rdHi rdLo rs rm) : RoundTrip.Statement (.smull c s rdHi rdLo rs rm) := by
  intro h
  refine ⟨_, rfl, ?_, ?_, ?_⟩
  · simp (disch := first | decide | assumption) [Row.accepts, encode, flag, or_and_mask, place_and_zero, condF, cond_place_ne, postW, noPUW, field12Ones, field16Ones, place_one, place_zero, IndexMode.p, IndexMode.w, BlockMode.p, BlockMode.u, place16_ne, place12_ne]
  · simp (disch := decide) [Row.proper, encode, flag, or_and_mask, place_and_zero, postW, noPUW, place_one, place_zero, IndexMode.p, IndexMode.w, BlockMode.p, BlockMode.u]
  · simp (disch := decide) [encode, flag, field_or, bitAt_or, field_place_same, field_place_disjoint, bitAt_place_same, bitAt_place_disjoint, cond_ofCode_code, shift_ofCode_code, indexMode_of, blockMode_of, join8, join16, field_lit, bitAt_lit]

theorem RoundTrip.smlal (c s rdHi rdLo rs rm) : RoundTrip.Statement (.smlal c s rdHi rdLo rs rm) := by
  intro h
  refine ⟨_, rfl, ?_, ?_, ?_⟩
  · simp (disch := first | decide | assumption) [Row.accepts, encode, flag, or_and_mask, place_and_zero, condF, cond_place_ne, postW, noPUW, field12Ones, field16Ones, place_one, place_zero, IndexMode.p, IndexMode.w, BlockMode.p, BlockMode.u, place16_ne, place12_ne]
  · simp (disch := decide) [Row.proper, encode, flag, or_and_mask, place_and_zero, postW, noPUW, place_one, place_zero, IndexMode.p, IndexMode.w, BlockMode.p, BlockMode.u]
  · simp (disch := decide) [encode, flag, field_or, bitAt_or, field_place_same, field_place_disjoint, bitAt_place_same, bitAt_place_disjoint, cond_ofCode_code, shift_ofCode_code, indexMode_of, blockMode_of, join8, join16, field_lit, bitAt_lit]

theorem RoundTrip.smlaXY (c rd rn rs y x rm) : RoundTrip.Statement (.smlaXY c rd rn rs y x rm) := by
  intro h
  refine ⟨_, rfl, ?_, ?_, ?_⟩
  · simp (disch := first | decide | assumption) [Row.accepts, encode, flag, or_and_mask, place_and_zero, condF, cond_place_ne, postW, noPUW, field12Ones, field16Ones, place_one, place_zero, IndexMode.p, IndexMode.w, BlockMode.p, BlockMode.u, place16_ne, place12_ne]
  · simp (disch := decide) [Row.proper, encode, flag, or_and_mask, place_and_zero, postW, noPUW, place_one, place_zero, IndexMode.p, IndexMode.w, BlockMode.p, BlockMode.u]
  · simp (disch := decide) [encode, flag, field_or, bitAt_or, field_place_same, field_place_disjoint, bitAt_place_same, bitAt_place_disjoint, cond_ofCode_code, shift_ofCode_code, indexMode_of, blockMode_of, join8, join16, field_lit, bitAt_lit]

theorem RoundTrip.smlawY (c rd rn rs y rm) : RoundTrip.Statement (.smlawY c rd rn rs y rm) := by
  intro h
  refine ⟨_, rfl, ?_, ?_, ?_⟩
  · simp (disch := first | decide | assumption) [Row.accepts, encode, flag, or_and_mask, place_and_zero, condF, cond_place_ne, postW, noPUW, field12Ones, field16Ones, place_one, place_zero, IndexMode.p, IndexMode.w, BlockMode.p, BlockMode.u, place16_ne, place12_ne]
  · simp (disch := decide) [Row.proper, encode, flag, or_and_mask, place_and_zero, postW, noPUW, place_one, place_zero, IndexMode.p, IndexMode.w, BlockMode.p, BlockMode.u]
  · simp (disch := decide) [encode, flag, field_or, bitAt_or, field_place_same, field_place_disjoint, bitAt_place_same, bitAt_place_disjoint, cond_ofCode_code, shift_ofCode_code, indexMode_of, blockMode_of, join8, join16, field_lit, bitAt_lit]

theorem RoundTrip.smulwY (c rd rs y rm) : RoundTrip.Statement (.smulwY c rd rs y rm) := by
  intro h
  refine ⟨_, rfl, ?_, ?_, ?_⟩
  · simp (disch := first | decide | assumption) [Row.accepts, encode, flag, or_and_mask, place_and_zero, condF, cond_place_ne, postW, noPUW, field12Ones, field16Ones, place_one, place_zero, IndexMode.p, IndexMode.w, BlockMode.p, BlockMode.u, place16_ne, place12_ne]
  · simp (disch := decide) [Row.proper, encode, flag, or_and_mask, place_and_zero, postW, noPUW, place_one, place_zero, IndexMode.p, IndexMode.w, BlockMode.p, BlockMode.u]
  · simp (disch := decide) [encode, flag, field_or, bitAt_or, field_place_same, field_place_disjoint, bitAt_place_same, bitAt_place_disjoint, cond_ofCode_code, shift_ofCode_code, indexMode_of, blockMode_of, join8, join16, field_lit, bitAt_lit]

theorem RoundTrip.smlalXY (c rdHi rdLo rs y x rm) : RoundTrip.Statement (.smlalXY c rdHi rdLo rs y x rm) := by
  intro h
  refine ⟨_, rfl, ?_, ?_, ?_⟩
  · simp (disch := first | decide | assumption) [Row.accepts, encode, flag, or_and_mask, place_and_zero, condF, cond_place_ne, postW, noPUW, field12Ones, field16Ones, place_one, place_zero, IndexMode.p, IndexMode.w, BlockMode.p, BlockMode.u, place16_ne, place12_ne]
  · simp (disch := decide) [Row.proper, encode, flag, or_and_mask, place_and_zero, postW, noPUW, place_one, place_zero, IndexMode.p, IndexMode.w, BlockMode.p, BlockMode.u]
  · simp (disch := decide) [encode, flag, field_or, bitAt_or, field_place_same, field_place_disjoint, bitAt_place_same, bitAt_place_disjoint, cond_ofCode_code, shift_ofCode_code, indexMode_of, blockMode_of, join8, join16, field_lit, bitAt_lit]

theorem RoundTrip.smulXY (c rd rs y x rm) : RoundTrip.Statement (.smulXY c rd rs y x rm) := by
  intro h
  refine ⟨_, rfl, ?_, ?_, ?_⟩
  · simp (disch := first | decide | assumption) [Row.accepts, encode, flag, or_and_mask, place_and_zero, condF, cond_place_ne, postW, noPUW, field12Ones, field16Ones, place_one, place_zero, IndexMode.p, IndexMode.w, BlockMode.p, BlockMode.u, place16_ne, place12_ne]
  · simp (disch := decide) [Row.proper, encode, flag, or_and_mask, place_and_zero, postW, noPUW, place_one, place_zero, IndexMode.p, IndexMode.w, BlockMode.p, BlockMode.u]
  · simp (disch := decide) [encode, flag, field_or, bitAt_or, field_place_same, field_place_disjoint, bitAt_place_same, bitAt_place_disjoint, cond_ofCode_code, shift_ofCode_code, indexMode_of, blockMode_of, join8, join16, field_lit, bitAt_lit]

theorem RoundTrip.smuad (c rd rs x rm) : RoundTrip.Statement (.smuad c rd rs x rm) := by
  intro h
  refine ⟨_, rfl, ?_, ?_, ?_⟩
  · simp (disch := first | decide | assumption) [Row.accepts, encode, flag, or_and_mask, place_and_zero, condF, cond_place_ne, postW, noPUW, field12Ones, field16Ones, place_one, place_zero, IndexMode.p, IndexMode.w, BlockMode.p, BlockMode.u, place16_ne, place12_ne]
  · simp (disch := decide) [Row.proper, encode, flag, or_and_mask, place_and_zero, postW, noPUW, place_one, place_zero, IndexMode.p, IndexMode.w, BlockMode.p, BlockMode.u]
  · simp (disch := decide) [encode, flag, field_or, bitAt_or, field_place_same, field_place_disjoint, bitAt_place_same, bitAt_place_disjoint, cond_ofCode_code, shift_ofCode_code, indexMode_of, blockMode_of, join8, join16, field_lit, bitAt_lit]

theorem RoundTrip.smusd (c rd rs x rm) : RoundTrip.Statement (.smusd c rd rs x rm) := by
  intro h
  refine ⟨_, rfl, ?_, ?_, ?_⟩
  · simp (disch := first | decide | assumption) [Row.accepts, encode, flag, or_and_mask, place_and_zero, condF, cond_place_ne, postW, noPUW, field12Ones, field16Ones, place_one, place_zero, IndexMode.p, IndexMode.w, BlockMode.p, BlockMode.u, place16_ne, place12_ne]
  · simp (disch := decide) [Row.proper, encode, flag, or_and_mask, place_and_zero, postW, noPUW, place_one, place_zero, IndexMode.p, IndexMode.w, BlockMode.p, BlockMode.u]
  · simp (disch := decide) [encode, flag, field_or, bitAt_or, field_place_same, field_place_disjoint, bitAt_place_same, bitAt_place_disjoint, cond_ofCode_code, shift_ofCode_code, indexMode_of, blockMode_of, join8, join16, field_lit, bitAt_lit]

theorem RoundTrip.smlad (c rd rn rs x rm) : RoundTrip.Statement (.smlad c rd rn rs x rm) := by
  intro h
  have h : rn ≠ 15 := by simpa [Instr.wf, notAll1] using h
  refine ⟨_, rfl, ?_, ?_, ?_⟩
  · simp (disch := first | decide | assumption) [Row.accepts, encode, flag, or_and_mask, place_and_zero, condF, cond_place_ne, postW, noPUW, field12Ones, field16Ones, place_one, place_zero, IndexMode.p, IndexMode.w, BlockMode.p, BlockMode.u, place16_ne, place12_ne, h]
  · simp (disch := decide) [Row.proper, encode, flag, or_and_mask, place_and_zero, postW, noPUW, place_one, place_zero, IndexMode.p, IndexMode.w, BlockMode.p, BlockMode.u]
  · simp (disch := decide) [encode, flag, field_or, bitAt_or, field_place_same, field_place_disjoint, bitAt_place_same, bitAt_place_disjoint, cond_ofCode_code, shift_ofCode_code, indexMode_of, blockMode_of, join8, join16, field_lit, bitAt_lit]

theorem RoundTrip.smlsd (c rd rn rs x rm) : RoundTrip.Statement (.smlsd c rd rn rs x rm) := by
  intro h
  have h : rn ≠ 15 := by simpa [Instr.wf, notAll1] using h
  refine ⟨_, rfl, ?_, ?_, ?_⟩
  · simp (disch := first | decide | assumption) [Row.accepts, encode, flag, or_and_mask, place_and_zero, condF, cond_place_ne, postW, noPUW, field12Ones, field16Ones, place_one, place_zero, IndexMode.p, IndexMode.w, BlockMode.p, BlockMode.u, place16_ne, place12_ne, h]
  · simp (disch := decide) [Row.proper, encode, flag, or_and_mask, place_and_zero, postW, noPUW, place_one, place_zero, IndexMode.p, IndexMode.w, BlockMode.p, BlockMode.u]
  · simp (disch := decide) [encode, flag, field_or, bitAt_or, field_place_same, field_place_disjoint, bitAt_place_same, bitAt_place_disjoint, cond_ofCode_code, shift_ofCode_code, indexMode_of, blockMode_of, join8, join16, field_lit, bitAt_lit]

theorem RoundTrip.smlald (c rdHi rdLo rs x rm) : RoundTrip.Statement (.smlald c rdHi rdLo rs x rm) := by
  intro h
  refine ⟨_, rfl, ?_, ?_, ?_⟩
  · simp (disch := first | decide | assumption) [Row.accepts, encode, flag, or_and_mask, place_and_zero, condF, cond_place_ne, postW, noPUW, field12Ones, field16Ones, place_one, place_zero, IndexMode.p, IndexMode.w, BlockMode.p, BlockMode.u, place16_ne, place12_ne]
  · simp (disch := decide) [Row.proper, encode, flag, or_and_mask, place_and_zero, postW, noPUW, place_one, place_zero, IndexMode.p, IndexMode.w, BlockMode.p, BlockMode.u]
  · simp (disch := decide) [encode, flag, field_or, bitAt_or, field_place_same, field_place_disjoint, bitAt_place_same, bitAt_place_disjoint, cond_ofCode_code, shift_ofCode_code, indexMode_of, blockMode_of, join8, join16, field_lit, bitAt_lit]

theorem RoundTrip.smlsld (c rdHi rdLo rs x rm) : RoundTrip.Statement (.smlsld c rdHi rdLo rs x rm) := by
  intro h
  refine ⟨_, rfl, ?_, ?_, ?_⟩
  · simp (disch := first | decide | assumption) [Row.accepts, encode, flag, or_and_mask, place_and_zero, condF, cond_place_ne, postW, noPUW, field12Ones, field16Ones, place_one, place_zero, IndexMode.p, IndexMode.w, BlockMode.p, BlockMode.u, place16_ne, place12_ne]
  · simp (disch := decide) [Row.proper, encode, flag, or_and_mask, place_and_zero, postW, noPUW, place_one, place_zero, IndexMode.p, IndexMode.w, BlockMode.p, BlockMode.u]
  · simp (disch := decide) [encode, flag, field_or, bitAt_or, field_place_same, field_place_disjoint, bitAt_place_same, bitAt_place_disjoint, cond_ofCode_code, shift_ofCode_code, indexMode_of, blockMode_of, join8, join16, field_lit, bitAt_lit]

theorem RoundTrip.smmul (c rd rs r rm) : RoundTrip.Statement (.smmul c rd rs r rm) := by
  intro h
  refine ⟨_, rfl, ?_, ?_, ?_⟩
  · simp (disch := first | decide | assumption) [Row.accepts, encode, flag, or_and_mask, place_and_zero, condF, cond_place_ne, postW, noPUW, field12Ones, field16Ones, place_one, place_zero, IndexMode.p, IndexMode.w, BlockMode.p, BlockMode.u, place16_ne, place12_ne]
  · simp (disch := decide) [Row.proper, encode, flag, or_and_mask, place_and_zero, postW, noPUW, place_one, place_zero, IndexMode.p, IndexMode.w, BlockMode.p, BlockMode.u]
  · simp (disch := decide) [encode, flag, field_or, bitAt_or, field_place_same, field_place_disjoint, bitAt_place_same, bitAt_place_disjoint, cond_ofCode_code, shift_ofCode_code, indexMode_of, blockMode_of, join8, join16, field_lit, bitAt_lit]

theorem RoundTrip.smmla (c rd rn rs r rm) : RoundTrip.Statement (.smmla c rd rn rs r rm) := by
  intro h
  have h : rn ≠ 15 := by simpa [Instr.wf, notAll1] using h
  refine ⟨_, rfl, ?_, ?_, ?_⟩
  · simp (disch := first | decide | assumption) [Row.accepts, encode, flag, or_and_mask, place_and_zero, condF, cond_place_ne, postW, noPUW, field12Ones, field16Ones, place_one, place_zero, IndexMode.p, IndexMode.w, BlockMode.p, BlockMode.u, place16_ne, place12_ne, h]
  · simp (disch := decide) [Row.proper, encode, flag, or_and_mask, place_and_zero, postW, noPUW, place_one, place_zero, IndexMode.p, IndexMode.w, BlockMode.p, BlockMode.u]
  · simp (disch := decide) [encode, flag, field_or, bitAt_or, field_place_same, field_place_disjoint, bitAt_place_same, bitAt_place_disjoint, cond_ofCode_code, shift_ofCode_code, indexMode_of, blockMode_of, join8, join16, field_lit, bitAt_lit]

theorem RoundTrip.smmls (c rd rn rs r rm) : RoundTrip.Statement (.smmls c rd rn rs r rm) := by
  intro h
  refine ⟨_, rfl, ?_, ?_, ?_⟩
  · simp (disch := first | decide | assumption) [Row.accepts, encode, flag, or_and_mask, place_and_zero, condF, cond_place_ne, postW, noPUW, field12Ones, field16Ones, place_one, place_zero, IndexMode.p, IndexMode.w, BlockMode.p, BlockMode.u, place16_ne, place12_ne]
  · simp (disch := decide) [Row.proper, encode, flag, or_and_mask, place_and_zero, postW, noPUW, place_one, place_zero, IndexMode.p, IndexMode.w, BlockMode.p, BlockMode.u]
  · simp (disch := decide) [encode, flag, field_or, bitAt_or, field_place_same, field_place_disjoint, bitAt_place_same, bitAt_place_disjoint, cond_ofCode_code, shift_ofCode_code, indexMode_of, blockMode_of, join8, join16, field_lit, bitAt_lit]

theorem RoundTrip.sadd16 (c rn rd rm) : RoundTrip.Statement (.sadd16 c rn rd rm) := by
  intro h
  refine ⟨_, rfl, ?_, ?_, ?_⟩
  · simp (disch := first | decide | assumption) [Row.accepts, encode, flag, or_and_mask, place_and_zero, condF, cond_place_ne, postW, noPUW, field12Ones, field16Ones, place_one, place_zero, IndexMode.p, IndexMode.w, BlockMode.p, BlockMode.u, place16_ne, place12_ne]
  · simp (disch := decide) [Row.proper, encode, flag, or_and_mask, place_and_zero, postW, noPUW, place_one, place_zero, IndexMode.p, IndexMode.w, BlockMode.p, BlockMode.u]
  · simp (disch := decide) [encode, flag, field_or, bitAt_or, field_place_same, field_place_disjoint, bitAt_place_same, bitAt_place_disjoint, cond_ofCode_code, shift_ofCode_code, indexMode_of, blockMode_of, join8, join16, field_lit, bitAt_lit]

theorem RoundTrip.saddsubx (c rn rd rm) : RoundTrip.Statement (.saddsubx c rn rd rm) := by
  intro h
  refine ⟨_, rfl, ?_, ?_, ?_⟩
  · simp (disch := first | decide | assumption) [Row.accepts, encode, flag, or_and_mask, place_and_zero, condF, cond_place_ne, postW, noPUW, field12Ones, field16Ones, place_one, place_zero, IndexMode.p, IndexMode.w, BlockMode.p, BlockMode.u, place16_ne, place12_ne]
  · simp (disch := decide) [Row.proper, encode, flag, or_and_mask, place_and_zero, postW, noPUW, place_one, place_zero, IndexMode.p, IndexMode.w, BlockMode.p, BlockMode.u]
  · simp (disch := decide) [encode, flag, field_or, bitAt_or, field_place_same, field_place_disjoint, bitAt_place_same, bitAt_place_disjoint, cond_ofCode_code, shift_ofCode_code, indexMode_of, blockMode_of, join8, join16, field_lit, bitAt_lit]

theorem RoundTrip.ssubaddx (c rn rd rm) : RoundTrip.Statement (.ssubaddx c rn rd rm) := by
  intro h
  refine ⟨_, rfl, ?_, ?_, ?_⟩
  · simp (disch := first | decide | assumption) [Row.accepts, encode, flag, or_and_mask, place_and_zero, condF, cond_place_ne, postW, noPUW, field12Ones, field16Ones, place_one, place_zero, IndexMode.p, IndexMode.w, BlockMode.p, BlockMode.u, place16_ne, place12_ne]
  · simp (disch := decide) [Row.proper, encode, flag, or_and_mask, place_and_zero, postW, noPUW, place_one, place_zero, IndexMode.p, IndexMode.w, BlockMode.p, BlockMode.u]
  · simp (disch := decide) [encode, flag, field_or, bitAt_or, field_place_same, field_place_disjoint, bitAt_place_same, bitAt_place_disjoint, cond_ofCode_code, shift_ofCode_code, indexMode_of, blockMode_of, join8, join16, field_lit, bitAt_lit]

theorem RoundTrip.ssub16 (c rn rd rm) : RoundTrip.Statement (.ssub16 c rn rd rm) := by
  intro h
  refine ⟨_, rfl, ?_, ?_, ?_⟩
  · simp (disch := first | decide | assumption) [Row.accepts, encode, flag, or_and_mask, place_and_zero, condF, cond_place_ne, postW, noPUW, field12Ones, field16Ones, place_one, place_zero, IndexMode.p, IndexMode.w, BlockMode.p, BlockMode.u, place16_ne, place12_ne]
  · simp (disch := decide) [Row.proper, encode, flag, or_and_mask, place_and_zero, postW, noPUW, place_one, place_zero, IndexMode.p, IndexMode.w, BlockMode.p, BlockMode.u]
  · simp (disch := decide) [encode, flag, field_or, bitAt_or, field_place_same, field_place_disjoint, bitAt_place_same, bitAt_place_disjoint, cond_ofCode_code, shift_ofCode_code, indexMode_of, blockMode_of, join8, join16, field_lit, bitAt_lit]

theorem RoundTrip.sadd8 (c rn rd rm) : RoundTrip.Statement (.sadd8 c rn rd rm) := by
  intro h
  refine ⟨_, rfl, ?_, ?_, ?_⟩
  · simp (disch := first | decide | assumption) [Row.accepts, encode, flag, or_and_mask, place_and_zero, condF, cond_place_ne, postW, noPUW, field12Ones, field16Ones, place_one, place_zero, IndexMode.p, IndexMode.w, BlockMode.p, BlockMode.u, place16_ne, place12_ne]
  · simp (disch := decide) [Row.proper, encode, flag, or_and_mask, place_and_zero, postW, noPUW, place_one, place_zero, IndexMode.p, IndexMode.w, BlockMode.p, BlockMode.u]
  · simp (disch := decide) [encode, flag, field_or, bitAt_or, field_place_same, field_place_disjoint, bitAt_place_same, bitAt_place_disjoint, cond_ofCode_code, shift_ofCode_code, indexMode_of, blockMode_of, join8, join16, field_lit, bitAt_lit]

theorem RoundTrip.ssub8 (c rn rd rm) : RoundTrip.Statement (.ssub8 c rn rd rm) := by
  intro h
  refine ⟨_, rfl, ?_, ?_, ?_⟩
  · simp (disch := first | decide | assumption) [Row.accepts, encode, flag, or_and_mask, place_and_zero, condF, cond_place_ne, postW, noPUW, field12Ones, field16Ones, place_one, place_zero, IndexMode.p, IndexMode.w, BlockMode.p, BlockMode.u, place16_ne, place12_ne]
  · simp (disch := decide) [Row.proper, encode, flag, or_and_mask, place_and_zero, postW, noPUW, place_one, place_zero, IndexMode.p, IndexMode.w, BlockMode.p, BlockMode.u]
  · simp (disch := decide) [encode, flag, field_or, bitAt_or, field_place_same, field_place_disjoint, bitAt_place_same, bitAt_place_disjoint, cond_ofCode_code, shift_ofCode_code, indexMode_of, blockMode_of, join8, join16, field_lit, bitAt_lit]

theorem RoundTrip.qadd16 (c rn rd rm) : RoundTrip.Statement (.qadd16 c rn rd rm) := by
  intro h
  refine ⟨_, rfl, ?_, ?_, ?_⟩
  · simp (disch := first | decide | assumption) [Row.accepts, encode, flag, or_and_mask, place_and_zero, condF, cond_place_ne, postW, noPUW, field12Ones, field16Ones, place_one, place_zero, IndexMode.p, IndexMode.w, BlockMode.p, BlockMode.u, place16_ne, place12_ne]
  · simp (disch := decide) [Row.proper, encode, flag, or_and_mask, place_and_zero, postW, noPUW, place_one, place_zero, IndexMode.p, IndexMode.w, BlockMode.p, BlockMode.u]
  · simp (disch := decide) [encode, flag, field_or, bitAt_or, field_place_same, field_place_disjoint, bitAt_place_same, bitAt_place_disjoint, cond_ofCode_code, shift_ofCode_code, indexMode_of, blockMode_of, join8, join16, field_lit, bitAt_lit]

theorem RoundTrip.qaddsubx (c rn rd rm) : RoundTrip.Statement (.qaddsubx c rn rd rm) := by
  intro h
  refine ⟨_, rfl, ?_, ?_, ?_⟩
  · simp (disch := first | decide | assumption) [Row.accepts, encode, flag, or_and_mask, place_and_zero, condF, cond_place_ne, postW, noPUW, field12Ones, field16Ones, place_one, place_zero, IndexMode.p, IndexMode.w, BlockMode.p, BlockMode.u, place16_ne, place12_ne]
  · simp (disch := decide) [Row.proper, encode, flag, or_and_mask, place_and_zero, postW, noPUW, place_one, place_zero, IndexMode.p, IndexMode.w, BlockMode.p, BlockMode.u]
  · simp (disch := decide) [encode, flag, field_or, bitAt_or, field_place_same, field_place_disjoint, bitAt_place_same, bitAt_place_disjoint, cond_ofCode_code, shift_ofCode_code, indexMode_of, blockMode_of, join8, join16, field_lit, bitAt_lit]

theorem RoundTrip.qsubaddx (c rn rd rm) : RoundTrip.Statement (.qsubaddx c rn rd rm) := by
  intro h
  refine ⟨_, rfl, ?_, ?_, ?_⟩
  · simp (disch := first | decide | assumption) [Row.accepts, encode, flag, or_and_mask, place_and_zero, condF, cond_place_ne, postW, noPUW, field12Ones, field16Ones, place_one, place_zero, IndexMode.p, IndexMode.w, BlockMode.p, BlockMode.u, place16_ne, place12_ne]
  · simp (disch := decide) [Row.proper, encode, flag, or_and_mask, place_and_zero, postW, noPUW, place_one, place_zero, IndexMode.p, IndexMode.w, BlockMode.p, BlockMode.u]
  · simp (disch := decide) [encode, flag, field_or, bitAt_or, field_place_same, field_place_disjoint, bitAt_place_same, bitAt_place_disjoint, cond_ofCode_code, shift_ofCode_code, indexMode_of, blockMode_of, join8, join16, field_lit, bitAt_lit]

theorem RoundTrip.qsub16 (c rn rd rm) : RoundTrip.Statement (.qsub16 c rn rd rm) := by
  intro h
  refine ⟨_, rfl, ?_, ?_, ?_⟩
  · simp (disch := first | decide | assumption) [Row.accepts, encode, flag, or_and_mask, place_and_zero, condF, cond_place_ne, postW, noPUW, field12Ones, field16Ones, place_one, place_zero, IndexMode.p, IndexMode.w, BlockMode.p, BlockMode.u, place16_ne, place12_ne]
  · simp (disch := decide) [Row.proper, encode, flag, or_and_mask, place_and_zero, postW, noPUW, place_one, place_zero, IndexMode.p, IndexMode.w, BlockMode.p, BlockMode.u]
  · simp (disch := decide) [encode, flag, field_or, bitAt_or, field_place_same, field_place_disjoint, bitAt_place_same, bitAt_place_disjoint, cond_ofCode_code, shift_ofCode_code, indexMode_of, blockMode_of, join8, join16, field_lit, bitAt_lit]

theorem RoundTrip.qadd8 (c rn rd rm) : RoundTrip.Statement (.qadd8 c rn rd rm) := by
  intro h
  refine ⟨_, rfl, ?_, ?_, ?_⟩
  · simp (disch := first | decide | assumption) [Row.accepts, encode, flag, or_and_mask, place_and_zero, condF, cond_place_ne, postW, noPUW, field12Ones, field16Ones, place_one, place_zero, IndexMode.p, IndexMode.w, BlockMode.p, BlockMode.u, place16_ne, place12_ne]
  · simp (disch := decide) [Row.proper, encode, flag, or_and_mask, place_and_zero, postW, noPUW, place_one, place_zero, IndexMode.p, IndexMode.w, BlockMode.p, BlockMode.u]
  · simp (disch := decide) [encode, flag, field_or, bitAt_or, field_place_same, field_place_disjoint, bitAt_place_same, bitAt_place_disjoint, cond_ofCode_code, shift_ofCode_code, indexMode_of, blockMode_of, join8, join16, field_lit, bitAt_lit]

theorem RoundTrip.qsub8 (c rn rd rm) : RoundTrip.Statement (.qsub8 c rn rd rm) := by
  intro h
  refine ⟨_, rfl, ?_, ?_, ?_⟩
  · simp (disch := first | decide | assumption) [Row.accepts, encode, flag, or_and_mask, place_and_zero, condF, cond_place_ne, postW, noPUW, field12Ones, field16Ones, place_one, place_zero, IndexMode.p, IndexMode.w, BlockMode.p, BlockMode.u, place16_ne, place12_ne]
  · simp (disch := decide) [Row.proper, encode, flag, or_and_mask, place_and_zero, postW, noPUW, place_one, place_zero, IndexMode.p, IndexMode.w, BlockMode.p, BlockMode.u]
  · simp (disch := decide) [encode, flag, field_or, bitAt_or, field_place_same, field_place_disjoint, bitAt_place_same, bitAt_place_disjoint, cond_ofCode_code, shift_ofCode_code, indexMode_of, blockMode_of, join8, join16, field_lit, bitAt_lit]

theorem RoundTrip.shadd16 (c rn rd rm) : RoundTrip.Statement (.shadd16 c rn rd rm) := by
  intro h
  refine ⟨_, rfl, ?_, ?_, ?_⟩
  · simp (disch := first | decide | assumption) [Row.accepts, encode, flag, or_and_mask, place_and_zero, condF, cond_place_ne, postW, noPUW, field12Ones, field16Ones, place_one, place_zero, IndexMode.p, IndexMode.w, BlockMode.p, BlockMode.u, place16_ne, place12_ne]
  · simp (disch := decide) [Row.proper, encode, flag, or_and_mask, place_and_zero, postW, noPUW, place_one, place_zero, IndexMode.p, IndexMode.w, BlockMode.p, BlockMode.u]
  · simp (disch := decide) [encode, flag, field_or, bitAt_or, field_place_same, field_place_disjoint, bitAt_place_same, bitAt_place_disjoint, cond_ofCode_code, shift_ofCode_code, indexMode_of, blockMode_of, join8, join16, field_lit, bitAt_lit]

theorem RoundTrip.shaddsubx (c rn rd rm) : RoundTrip.Statement (.shaddsubx c rn rd rm) := by
  intro h
  refine ⟨_, rfl, ?_, ?_, ?_⟩
  · simp (disch := first | decide | assumption) [Row.accepts, encode, flag, or_and_mask, place_and_zero, condF, cond_place_ne, postW, noPUW, field12Ones, field16Ones, place_one, place_zero, IndexMode.p, IndexMode.w, BlockMode.p, BlockMode.u, place16_ne, place12_ne]
  · simp (disch := decide) [Row.proper, encode, flag, or_and_mask, place_and_zero, postW, noPUW, place_one, place_zero, IndexMode.p, IndexMode.w, BlockMode.p, BlockMode.u]
  · simp (disch := decide) [encode, flag, field_or, bitAt_or, field_place_same, field_place_disjoint, bitAt_place_same, bitAt_place_disjoint, cond_ofCode_code, shift_ofCode_code, indexMode_of, blockMode_of, join8, join16, field_lit, bitAt_lit]

theorem RoundTrip.shsubaddx (c rn rd rm) : RoundTrip.Statement (.shsubaddx c rn rd rm) := by
  intro h
  refine ⟨_, rfl, ?_, ?_, ?_⟩
  · simp (disch := first | decide | assumption) [Row.accepts, encode, flag, or_and_mask, place_and_zero, condF, cond_place_ne, postW, noPUW, field12Ones, field16Ones, place_one, place_zero, IndexMode.p, IndexMode.w, BlockMode.p, BlockMode.u, place16_ne, place12_ne]
  · simp (disch := decide) [Row.proper, encode, flag, or_and_mask, place_and_zero, postW, noPUW, place_one, place_zero, IndexMode.p, IndexMode.w, BlockMode.p, BlockMode.u]
  · simp (disch := decide) [encode, flag, field_or, bitAt_or, field_place_same, field_place_disjoint, bitAt_place_same, bitAt_place_disjoint, cond_ofCode_code, shift_ofCode_code, indexMode_of, blockMode_of, join8, join16, field_lit, bitAt_lit]

theorem RoundTrip.shsub16 (c rn rd rm) : RoundTrip.Statement (.shsub16 c rn rd rm) := by
  intro h
  refine ⟨_, rfl, ?_, ?_, ?_⟩
  · simp (disch := first | decide | assumption) [Row.accepts, encode, flag, or_and_mask, place_and_zero, condF, cond_place_ne, postW, noPUW, field12Ones, field16Ones, place_one, place_zero, IndexMode.p, IndexMode.w, BlockMode.p, BlockMode.u, place16_ne, place12_ne]
  · simp (disch := decide) [Row.proper, encode, flag, or_and_mask, place_and_zero, postW, noPUW, place_one, place_zero, IndexMode.p, IndexMode.w, BlockMode.p, BlockMode.u]
  · simp (disch := decide) [encode, flag, field_or, bitAt_or, field_place_same, field_place_disjoint, bitAt_place_same, bitAt_place_disjoint, cond_ofCode_code, shift_ofCode_code, indexMode_of, blockMode_of, join8, join16, field_lit, bitAt_lit]

theorem RoundTrip.shadd8 (c rn rd rm) : RoundTrip.Statement (.shadd8 c rn rd rm) := by
  intro h
  refine ⟨_, rfl, ?_, ?_, ?_⟩
  · simp (disch := first | decide | assumption) [Row.accepts, encode, flag, or_and_mask, place_and_zero, condF, cond_place_ne, postW, noPUW, field12Ones, field16Ones, place_one, place_zero, IndexMode.p, IndexMode.w, BlockMode.p, BlockMode.u, place16_ne, place12_ne]
  · simp (disch := decide) [Row.proper, encode, flag, or_and_mask, place_and_zero, postW, noPUW, place_one, place_zero, IndexMode.p, IndexMode.w, BlockMode.p, BlockMode.u]
  · simp (disch := decide) [encode, flag, field_or, bitAt_or, field_place_same, field_place_disjoint, bitAt_place_same, bitAt_place_disjoint, cond_ofCode_code, shift_ofCode_code, indexMode_of, blockMode_of, join8, join16, field_lit, bitAt_lit]

theorem RoundTrip.shsub8 (c rn rd rm) : RoundTrip.Statement (.shsub8 c rn rd rm) := by
  intro h
  refine ⟨_, rfl, ?_, ?_, ?_⟩
  · simp (disch := first | decide | assumption) [Row.accepts, encode, flag, or_and_mask, place_and_zero, condF, cond_place_ne, postW, noPUW, field12Ones, field16Ones, place_one, place_zero, IndexMode.p, IndexMode.w, BlockMode.p, BlockMode.u, place16_ne, place12_ne]
  · simp (disch := decide) [Row.proper, encode, flag, or_and_mask, place_and_zero, postW, noPUW, place_one, place_zero, IndexMode.p, IndexMode.w, BlockMode.p, BlockMode.u]
  · simp (disch := decide) [encode, flag, field_or, bitAt_or, field_place_same, field_place_disjoint, bitAt_place_same, bitAt_place_disjoint, cond_ofCode_code, shift_ofCode_code, indexMode_of, blockMode_of, join8, join16, field_lit, bitAt_lit]

theorem RoundTrip.uadd16 (c rn rd rm) : RoundTrip.Statement (.uadd16 c rn rd rm) := by
  intro h
  refine ⟨_, rfl, ?_, ?_, ?_⟩
  · simp (disch := first | decide | assumption) [Row.accepts, encode, flag, or_and_mask, place_and_zero, condF, cond_place_ne, postW, noPUW, field12Ones, field16Ones, place_one, place_zero, IndexMode.p, IndexMode.w, BlockMode.p, BlockMode.u, place16_ne, place12_ne]
  · simp (disch := decide) [Row.proper, encode, flag, or_and_mask, place_and_zero, postW, noPUW, place_one, place_zero, IndexMode.p, IndexMode.w, BlockMode.p, BlockMode.u]
  · simp (disch := decide) [encode, flag, field_or, bitAt_or, field_place_same, field_place_disjoint, bitAt_place_same, bitAt_place_disjoint, cond_ofCode_code, shift_ofCode_code, indexMode_of, blockMode_of, join8, join16, field_lit, bitAt_lit]

theorem RoundTrip.uaddsubx (c rn rd rm) : RoundTrip.Statement (.uaddsubx c rn rd rm) := by
  intro h
  refine ⟨_, rfl, ?_, ?_, ?_⟩
  · simp (disch := first | decide | assumption) [Row.accepts, encode, flag, or_and_mask, place_and_zero, condF, cond_place_ne, postW, noPUW, field12Ones, field16Ones, place_one, place_zero, IndexMode.p, IndexMode.w, BlockMode.p, BlockMode.u, place16_ne, place12_ne]
  · simp (disch := decide) [Row.proper, encode, flag, or_and_mask, place_and_zero, postW, noPUW, place_one, place_zero, IndexMode.p, IndexMode.w, BlockMode.p, BlockMode.u]
  · simp (disch := decide) [encode, flag, field_or, bitAt_or, field_place_same, field_place_disjoint, bitAt_place_same, bitAt_place_disjoint, cond_ofCode_code, shift_ofCode_code, indexMode_of, blockMode_of, join8, join16, field_lit, bitAt_lit]

theorem RoundTrip.usubaddx (c rn rd rm) : RoundTrip.Statement (.usubaddx c rn rd rm) := by
  intro h
  refine ⟨_, rfl, ?_, ?_, ?_⟩
  · simp (disch := first | decide | assumption) [Row.accepts, encode, flag, or_and_mask, place_and_zero, condF, cond_place_ne, postW, noPUW, field12Ones, field16Ones, place_one, place_zero, IndexMode.p, IndexMode.w, BlockMode.p, BlockMode.u, place16_ne, place12_ne]
  · simp (disch := decide) [Row.proper, encode, flag, or_and_mask, place_and_zero, postW, noPUW, place_one, place_zero, IndexMode.p, IndexMode.w, BlockMode.p, BlockMode.u]
  · simp (disch := decide) [encode, flag, field_or, bitAt_or, field_place_same, field_place_disjoint, bitAt_place_same, bitAt_place_disjoint, cond_ofCode_code, shift_ofCode_code, indexMode_of, blockMode_of, join8, join16, field_lit, bitAt_lit]

theorem RoundTrip.usub16 (c rn rd rm) : RoundTrip.Statement (.usub16 c rn rd rm) := by
  intro h
  refine ⟨_, rfl, ?_, ?_, ?_⟩
  · simp (disch := first | decide | assumption) [Row.accepts, encode, flag, or_and_mask, place_and_zero, condF, cond_place_ne, postW, noPUW, field12Ones, field16Ones, place_one, place_zero, IndexMode.p, IndexMode.w, BlockMode.p, BlockMode.u, place16_ne, place12_ne]
  · simp (disch := decide) [Row.proper, encode, flag, or_and_mask, place_and_zero, postW, noPUW, place_one, place_zero, IndexMode.p, IndexMode.w, BlockMode.p, BlockMode.u]
  · simp (disch := decide) [encode, flag, field_or, bitAt_or, field_place_same, field_place_disjoint, bitAt_place_same, bitAt_place_disjoint, cond_ofCode_code, shift_ofCode_code, indexMode_of, blockMode_of, join8, join16, field_lit, bitAt_lit]

theorem RoundTrip.uadd8 (c rn rd rm) : RoundTrip.Statement (.uadd8 c rn rd rm) := by
  intro h
  refine ⟨_, rfl, ?_, ?_, ?_⟩
  · simp (disch := first | decide | assumption) [Row.accepts, encode, flag, or_and_mask, place_and_zero, condF, cond_place_ne, postW, noPUW, field12Ones, field16Ones, place_one, place_zero, IndexMode.p, IndexMode.w, BlockMode.p, BlockMode.u, place16_ne, place12_ne]
  · simp (disch := decide) [Row.proper, encode, flag, or_and_mask, place_and_zero, postW, noPUW, place_one, place_zero, IndexMode.p, IndexMode.w, BlockMode.p, BlockMode.u]
  · simp (disch := decide) [encode, flag, field_or, bitAt_or, field_place_same, field_place_disjoint, bitAt_place_same, bitAt_place_disjoint, cond_ofCode_code, shift_ofCode_code, indexMode_of, blockMode_of, join8, join16, field_lit, bitAt_lit]

theorem RoundTrip.usub8 (c rn rd rm) : RoundTrip.Statement (.usub8 c rn rd rm) := by
  intro h
  refine ⟨_, rfl, ?_, ?_, ?_⟩
  · simp (disch := first | decide | assumption) [Row.accepts, encode, flag, or_and_mask, place_and_zero, condF, cond_place_ne, postW, noPUW, field12Ones, field16Ones, place_one, place_zero, IndexMode.p, IndexMode.w, BlockMode.p, BlockMode.u, place16_ne, place12_ne]
  · simp (disch := decide) [Row.proper, encode, flag, or_and_mask, place_and_zero, postW, noPUW, place_one, place_zero, IndexMode.p, IndexMode.w, BlockMode.p, BlockMode.u]
  · simp (disch := decide) [encode, flag, field_or, bitAt_or, field_place_same, field_place_disjoint, bitAt_place_same, bitAt_place_disjoint, cond_ofCode_code, shift_ofCode_code, indexMode_of, blockMode_of, join8, join16, field_lit, bitAt_lit]

theorem RoundTrip.uqadd16 (c rn rd rm) : RoundTrip.Statement (.uqadd16 c rn rd rm) := by
  intro h
  refine ⟨_, rfl, ?_, ?_, ?_⟩
  · simp (disch := first | decide | assumption) [Row.accepts, encode, flag, or_and_mask, place_and_zero, condF, cond_place_ne, postW, noPUW, field12Ones, field16Ones, place_one, place_zero, IndexMode.p, IndexMode.w, BlockMode.p, BlockMode.u, place16_ne, place12_ne]
  · simp (disch := decide) [Row.proper, encode, flag, or_and_mask, place_and_zero, postW, noPUW, place_one, place_zero, IndexMode.p, IndexMode.w, BlockMode.p, BlockMode.u]
  · simp (disch := decide) [encode, flag, field_or, bitAt_or, field_place_same, field_place_disjoint, bitAt_place_same, bitAt_place_disjoint, cond_ofCode_code, shift_ofCode_code, indexMode_of, blockMode_of, join8, join16, field_lit, bitAt_lit]

theorem RoundTrip.uqaddsubx (c rn rd rm) : RoundTrip.Statement (.uqaddsubx c rn rd rm) := by
  intro h
  refine ⟨_, rfl, ?_, ?_, ?_⟩
  · simp (disch := first | decide | assumption) [Row.accepts, encode, flag, or_and_mask, place_and_zero, condF, cond_place_ne, postW, noPUW, field12Ones, field16Ones, place_one, place_zero, IndexMode.p, IndexMode.w, BlockMode.p, BlockMode.u, place16_ne, place12_ne]
  · simp (disch := decide) [Row.proper, encode, flag, or_and_mask, place_and_zero, postW, noPUW, place_one, place_zero, IndexMode.p, IndexMode.w, BlockMode.p, BlockMode.u]
  · simp (disch := decide) [encode, flag, field_or, bitAt_or, field_place_same, field_place_disjoint, bitAt_place_same, bitAt_place_disjoint, cond_ofCode_code, shift_ofCode_code, indexMode_of, blockMode_of, join8, join16, field_lit, bitAt_lit]

theorem RoundTrip.uqsubaddx (c rn rd rm) : RoundTrip.Statement (.uqsubaddx c rn rd rm) := by
  intro h
  refine ⟨_, rfl, ?_, ?_, ?_⟩
  · simp (disch := first | decide | assumption) [Row.accepts, encode, flag, or_and_mask, place_and_zero, condF, cond_place_ne, postW, noPUW, field12Ones, field16Ones, place_one, place_zero, IndexMode.p, IndexMode.w, BlockMode.p, BlockMode.u, place16_ne, place12_ne]
  · simp (disch := decide) [Row.proper, encode, flag, or_and_mask, place_and_zero, postW, noPUW, place_one, place_zero, IndexMode.p, IndexMode.w, BlockMode.p, BlockMode.u]
  · simp (disch := decide) [encode, flag, field_or, bitAt_or, field_place_same, field_place_disjoint, bitAt_place_same, bitAt_place_disjoint, cond_ofCode_code, shift_ofCode_code, indexMode_of, blockMode_of, join8, join16, field_lit, bitAt_lit]

theorem RoundTrip.uqsub16 (c rn rd rm) : RoundTrip.Statement (.uqsub16 c rn rd rm) := by
  intro h
  refine ⟨_, rfl, ?_, ?_, ?_⟩
  · simp (disch := first | decide | assumption) [Row.accepts, encode, flag, or_and_mask, place_and_zero, condF, cond_place_ne, postW, noPUW, field12Ones, field16Ones, place_one, place_zero, IndexMode.p, IndexMode.w, BlockMode.p, BlockMode.u, place16_ne, place12_ne]
  · simp (disch := decide) [Row.proper, encode, flag, or_and_mask, place_and_zero, postW, noPUW, place_one, place_zero, IndexMode.p, IndexMode.w, BlockMode.p, BlockMode.u]
  · simp (disch := decide) [encode, flag, field_or, bitAt_or, field_place_same, field_place_disjoint, bitAt_place_same, bitAt_place_disjoint, cond_ofCode_code, shift_ofCode_code, indexMode_of, blockMode_of, join8, join16, field_lit, bitAt_lit]

theorem RoundTrip.uqadd8 (c rn rd rm) : RoundTrip.Statement (.uqadd8 c rn rd rm) := by
  intro h
  refine ⟨_, rfl, ?_, ?_, ?_⟩
  · simp (disch := first | decide | assumption) [Row.accepts, encode, flag, or_and_mask, place_and_zero, condF, cond_place_ne, postW, noPUW, field12Ones, field16Ones, place_one, place_zero, IndexMode.p, IndexMode.w, BlockMode.p, BlockMode.u, place16_ne, place12_ne]
  · simp (disch := decide) [Row.proper, encode, flag, or_and_mask, place_and_zero, postW, noPUW, place_one, place_zero, IndexMode.p, IndexMode.w, BlockMode.p, BlockMode.u]
  · simp (disch := decide) [encode, flag, field_or, bitAt_or, field_place_same, field_place_disjoint, bitAt_place_same, bitAt_place_disjoint, cond_ofCode_code, shift_ofCode_code, indexMode_of, blockMode_of, join8, join16, field_lit, bitAt_lit]

theorem RoundTrip.uqsub8 (c rn rd rm) : RoundTrip.Statement (.uqsub8 c rn rd rm) := by
  intro h
  refine ⟨_, rfl, ?_, ?_, ?_⟩
  · simp (disch := first | decide | assumption) [Row.accepts, encode, flag, or_and_mask, place_and_zero, condF, cond_place_ne, postW, noPUW, field12Ones, field16Ones, place_one, place_zero, IndexMode.p, IndexMode.w, BlockMode.p, BlockMode.u, place16_ne, place12_ne]
  · simp (disch := decide) [Row.proper, encode, flag, or_and_mask, place_and_zero, postW, noPUW, place_one, place_zero, IndexMode.p, IndexMode.w, BlockMode.p, BlockMode.u]
  · simp (disch := decide) [encode, flag, field_or, bitAt_or, field_place_same, field_place_disjoint, bitAt_place_same, bitAt_place_disjoint, cond_ofCode_code, shift_ofCode_code, indexMode_of, blockMode_of, join8, join16, field_lit, bitAt_lit]

theorem RoundTrip.uhadd16 (c rn rd rm) : RoundTrip.Statement (.uhadd16 c rn rd rm) := by
  intro h
  refine ⟨_, rfl, ?_, ?_, ?_⟩
  · simp (disch := first | decide | assumption) [Row.accepts, encode, flag, or_and_mask, place_and_zero, condF, cond_place_ne, postW, noPUW, field12Ones, field16Ones, place_one, place_zero, IndexMode.p, IndexMode.w, BlockMode.p, BlockMode.u, place16_ne, place12_ne]
  · simp (disch := decide) [Row.proper, encode, flag, or_and_mask, place_and_zero, postW, noPUW, place_one, place_zero, IndexMode.p, IndexMode.w, BlockMode.p, BlockMode.u]
  · simp (disch := decide) [encode, flag, field_or, bitAt_or, field_place_same, field_place_disjoint, bitAt_place_same, bitAt_place_disjoint, cond_ofCode_code, shift_ofCode_code, indexMode_of, blockMode_of, join8, join16, field_lit, bitAt_lit]

theorem RoundTrip.uhaddsubx (c rn rd rm) : RoundTrip.Statement (.uhaddsubx c rn rd rm) := by
  intro h
  refine ⟨_, rfl, ?_, ?_, ?_⟩
  · simp (disch := first | decide | assumption) [Row.accepts, encode, flag, or_and_mask, place_and_zero, condF, cond_place_ne, postW, noPUW, field12Ones, field16Ones, place_one, place_zero, IndexMode.p, IndexMode.w, BlockMode.p, BlockMode.u, place16_ne, place12_ne]
  · simp (disch := decide) [Row.proper, encode, flag, or_and_mask, place_and_zero, postW, noPUW, place_one, place_zero, IndexMode.p, IndexMode.w, BlockMode.p, BlockMode.u]
  · simp (disch := decide) [encode, flag, field_or, bitAt_or, field_place_same, field_place_disjoint, bitAt_place_same, bitAt_place_disjoint, cond_ofCode_code, shift_ofCode_code, indexMode_of, blockMode_of, join8, join16, field_lit, bitAt_lit]

theorem RoundTrip.uhsubaddx (c rn rd rm) : RoundTrip.Statement (.uhsubaddx c rn rd rm) := by
  intro h
  refine ⟨_, rfl, ?_, ?_, ?_⟩
  · simp (disch := first | decide | assumption) [Row.accepts, encode, flag, or_and_mask, place_and_zero, condF, cond_place_ne, postW, noPUW, field12Ones, field16Ones, place_one, place_zero, IndexMode.p, IndexMode.w, BlockMode.p, BlockMode.u, place16_ne, place12_ne]
  · simp (disch := decide) [Row.proper, encode, flag, or_and_mask, place_and_zero, postW, noPUW, place_one, place_zero, IndexMode.p, IndexMode.w, BlockMode.p, BlockMode.u]
  · simp (disch := decide) [encode, flag, field_or, bitAt_or, field_place_same, field_place_disjoint, bitAt_place_same, bitAt_place_disjoint, cond_ofCode_code, shift_ofCode_code, indexMode_of, blockMode_of, join8, join16, field_lit, bitAt_lit]

theorem RoundTrip.uhsub16 (c rn rd rm) : RoundTrip.Statement (.uhsub16 c rn rd rm) := by
  intro h
  refine ⟨_, rfl, ?_, ?_, ?_⟩
  · simp (disch := first | decide | assumption) [Row.accepts, encode, flag, or_and_mask, place_and_zero, condF, cond_place_ne, postW, noPUW, field12Ones, field16Ones, place_one, place_zero, IndexMode.p, IndexMode.w, BlockMode.p, BlockMode.u, place16_ne, place12_ne]
  · simp (disch := decide) [Row.proper, encode, flag, or_and_mask, place_and_zero, postW, noPUW, place_one, place_zero, IndexMode.p, IndexMode.w, BlockMode.p, BlockMode.u]
  · simp (disch := decide) [encode, flag, field_or, bitAt_or, field_place_same, field_place_disjoint, bitAt_place_same, bitAt_place_disjoint, cond_ofCode_code, shift_ofCode_code, indexMode_of, blockMode_of, join8, join16, field_lit, bitAt_lit]

theorem RoundTrip.uhadd8 (c rn rd rm) : RoundTrip.Statement (.uhadd8 c rn rd rm) := by
  intro h
  refine ⟨_, rfl, ?_, ?_, ?_⟩
  · simp (disch := first | decide | assumption) [Row.accepts, encode, flag, or_and_mask, place_and_zero, condF, cond_place_ne, postW, noPUW, field12Ones, field16Ones, place_one, place_zero, IndexMode.p, IndexMode.w, BlockMode.p, BlockMode.u, place16_ne, place12_ne]
  · simp (disch := decide) [Row.proper, encode, flag, or_and_mask, place_and_zero, postW, noPUW, place_one, place_zero, IndexMode.p, IndexMode.w, BlockMode.p, BlockMode.u]
  · simp (disch := decide) [encode, flag, field_or, bitAt_or, field_place_same, field_place_disjoint, bitAt_place_same, bitAt_place_disjoint, cond_ofCode_code, shift_ofCode_code, indexMode_of, blockMode_of, join8, join16, field_lit, bitAt_lit]

theorem RoundTrip.uhsub8 (c rn rd rm) : RoundTrip.Statement (.uhsub8 c rn rd rm) := by
  intro h
  refine ⟨_, rfl, ?_, ?_, ?_⟩
  · simp (disch := first | decide | assumption) [Row.accepts, encode, flag, or_and_mask, place_and_zero, condF, cond_place_ne, postW, noPUW, field12Ones, field16Ones, place_one, place_zero, IndexMode.p, IndexMode.w, BlockMode.p, BlockMode.u, place16_ne, place12_ne]
  · simp (disch := decide) [Row.proper, encode, flag, or_and_mask, place_and_zero, postW, noPUW, place_one, place_zero, IndexMode.p, IndexMode.w, BlockMode.p, BlockMode.u]
  · simp (disch := decide) [encode, flag, field_or, bitAt_or, field_place_same, field_place_disjoint, bitAt_place_same, bitAt_place_disjoint, cond_ofCode_code, shift_ofCode_code, indexMode_of, blockMode_of, join8, join16, field_lit, bitAt_lit]

theorem RoundTrip.sxtab16 (c rn rd rot rm) : RoundTrip.Statement (.sxtab16 c rn rd rot rm) := by
  intro h
  have h : rn ≠ 15 := by simpa [Instr.wf, notAll1] using h
  refine ⟨_, rfl, ?_, ?_, ?_⟩
  · simp (disch := first | decide | assumption) [Row.accepts, encode, flag, or_and_mask, place_and_zero, condF, cond_place_ne, postW, noPUW, field12Ones, field16Ones, place_one, place_zero, IndexMode.p, IndexMode.w, BlockMode.p, BlockMode.u, place16_ne, place12_ne, h]
  · simp (disch := decide) [Row.proper, encode, flag, or_and_mask, place_and_zero, postW, noPUW, place_one, place_zero, IndexMode.p, IndexMode.w, BlockMode.p, BlockMode.u]
  · simp (disch := decide) [encode, flag, field_or, bitAt_or, field_place_same, field_place_disjoint, bitAt_place_same, bitAt_place_disjoint, cond_ofCode_code, shift_ofCode_code, indexMode_of, blockMode_of, join8, join16, field_lit, bitAt_lit]

theorem RoundTrip.sxtb16 (c rd rot rm) : RoundTrip.Statement (.sxtb16 c rd rot rm) := by
  intro h
  refine ⟨_, rfl, ?_, ?_, ?_⟩
  · simp (disch := first | decide | assumption) [Row.accepts, encode, flag, or_and_mask, place_and_zero, condF, cond_place_ne, postW, noPUW, field12Ones, field16Ones, place_one, place_zero, IndexMode.p, IndexMode.w, BlockMode.p, BlockMode.u, place16_ne, place12_ne]
  · simp (disch := decide) [Row.proper, encode, flag, or_and_mask, place_and_zero, postW, noPUW, place_one, place_zero, IndexMode.p, IndexMode.w, BlockMode.p, BlockMode.u]
  · simp (disch := decide) [encode, flag, field_or, bitAt_or, field_place_same, field_place_disjoint, bitAt_place_same, bitAt_place_disjoint, cond_ofCode_code, shift_ofCode_code, indexMode_of, blockMode_of, join8, join16, field_lit, bitAt_lit]

theorem RoundTrip.sxtab (c rn rd rot rm) : RoundTrip.Statement (.sxtab c rn rd rot rm) := by
  intro h
  have h : rn ≠ 15 := by simpa [Instr.wf, notAll1] using h
  refine ⟨_, rfl, ?_, ?_, ?_⟩
  · simp (disch := first | decide | assumption) [Row.accepts, encode, flag, or_and_mask, place_and_zero, condF, cond_place_ne, postW, noPUW, field12Ones, field16Ones, place_one, place_zero, IndexMode.p, IndexMode.w, BlockMode.p, BlockMode.u, place16_ne, place12_ne, h]
  · simp (disch := decide) [Row.proper, encode, flag, or_and_mask, place_and_zero, postW, noPUW, place_one, place_zero, IndexMode.p, IndexMode.w, BlockMode.p, BlockMode.u]
  · simp (disch := decide) [encode, flag, field_or, bitAt_or, field_place_same, field_place_disjoint, bitAt_place_same, bitAt_place_disjoint, cond_ofCode_code, shift_ofCode_code, indexMode_of, blockMode_of, join8, join16, field_lit, bitAt_lit]

theorem RoundTrip.sxtb (c rd rot rm) : RoundTrip.Statement (.sxtb c rd rot rm) := by
  intro h
  refine ⟨_, rfl, ?_, ?_, ?_⟩
  · simp (disch := first | decide | assumption) [Row.accepts, encode, flag, or_and_mask, place_and_zero, condF, cond_place_ne, postW, noPUW, field12Ones, field16Ones, place_one, place_zero, IndexMode.p, IndexMode.w, BlockMode.p, BlockMode.u, place16_ne, place12_ne]
  · simp (disch := decide) [Row.proper, encode, flag, or_and_mask, place_and_zero, postW, noPUW, place_one, place_zero, IndexMode.p, IndexMode.w, BlockMode.p, BlockMode.u]
  · simp (disch := decide) [encode, flag, field_or, bitAt_or, field_place_same, field_place_disjoint, bitAt_place_same, bitAt_place_disjoint, cond_ofCode_code, shift_ofCode_code, indexMode_of, blockMode_of, join8, join16, field_lit, bitAt_lit]

theorem RoundTrip.sxtah (c rn rd rot rm) : RoundTrip.Statement (.sxtah c rn rd rot rm) := by
  intro h
  have h : rn ≠ 15 := by simpa [Instr.wf, notAll1] using h
  refine ⟨_, rfl, ?_, ?_, ?_⟩
  · simp (disch := first | decide | assumption) [Row.accepts, encode, flag, or_and_mask, place_and_zero, condF, cond_place_ne, postW, noPUW, field12Ones, field16Ones, place_one, place_zero, IndexMode.p, IndexMode.w, BlockMode.p, BlockMode.u, place16_ne, place12_ne, h]
  · simp (disch := decide) [Row.proper, encode, flag, or_and_mask, place_and_zero, postW, noPUW, place_one, place_zero, IndexMode.p, IndexMode.w, BlockMode.p, BlockMode.u]
  · simp (disch := decide) [encode, flag, field_or, bitAt_or, field_place_same, field_place_disjoint, bitAt_place_same, bitAt_place_disjoint, cond_ofCode_code, shift_ofCode_code, indexMode_of, blockMode_of, join8, join16, field_lit, bitAt_lit]

theorem RoundTrip.sxth (c rd rot rm) : RoundTrip.Statement (.sxth c rd rot rm) := by
  intro h
  refine ⟨_, rfl, ?_, ?_, ?_⟩
  · simp (disch := first | decide | assumption) [Row.accepts, encode, flag, or_and_mask, place_and_zero, condF, cond_place_ne, postW, noPUW, field12Ones, field16Ones, place_one, place_zero, IndexMode.p, IndexMode.w, BlockMode.p, BlockMode.u, place16_ne, place12_ne]
  · simp (disch := decide) [Row.proper, encode, flag, or_and_mask, place_and_zero, postW, noPUW, place_one, place_zero, IndexMode.p, IndexMode.w, BlockMode.p, BlockMode.u]
  · simp (disch := decide) [encode, flag, field_or, bitAt_or, field_place_same, field_place_disjoint, bitAt_place_same, bitAt_place_disjoint, cond_ofCode_code, shift_ofCode_code, indexMode_of, blockMode_of, join8, join16, field_lit, bitAt_lit]

theorem RoundTrip.uxtab16 (c rn rd rot rm) : RoundTrip.Statement (.uxtab16 c rn rd rot rm) := by
  intro h
  have h : rn ≠ 15 := by simpa [Instr.wf, notAll1] using h
  refine ⟨_, rfl, ?_, ?_, ?_⟩
  · simp (disch := first | decide | assumption) [Row.accepts, encode, flag, or_and_mask, place_and_zero, condF, cond_place_ne, postW, noPUW, field12Ones, field16Ones, place_one, place_zero, IndexMode.p, IndexMode.w, BlockMode.p, BlockMode.u, place16_ne, place12_ne, h]
  · simp (disch := decide) [Row.proper, encode, flag, or_and_mask, place_and_zero, postW, noPUW, place_one, place_zero, IndexMode.p, IndexMode.w, BlockMode.p, BlockMode.u]
  · simp (disch := decide) [encode, flag, field_or, bitAt_or, field_place_same, field_place_disjoint, bitAt_place_same, bitAt_place_disjoint, cond_ofCode_code, shift_ofCode_code, indexMode_of, blockMode_of, join8, join16, field_lit, bitAt_lit]

theorem RoundTrip.uxtb16 (c rd rot rm) : RoundTrip.Statement (.uxtb16 c rd rot rm) := by
  intro h
  refine ⟨_, rfl, ?_, ?_, ?_⟩
  · simp (disch := first | decide | assumption) [Row.accepts, encode, flag, or_and_mask, place_and_zero, condF, cond_place_ne, postW, noPUW, field12Ones, field16Ones, place_one, place_zero, IndexMode.p, IndexMode.w, BlockMode.p, BlockMode.u, place16_ne, place12_ne]
  · simp (disch := decide) [Row.proper, encode, flag, or_and_mask, place_and_zero, postW, noPUW, place_one, place_zero, IndexMode.p, IndexMode.w, BlockMode.p, BlockMode.u]
  · simp (disch := decide) [encode, flag, field_or, bitAt_or, field_place_same, field_place_disjoint, bitAt_place_same, bitAt_place_disjoint, cond_ofCode_code, shift_ofCode_code, indexMode_of, blockMode_of, join8, join16, field_lit, bitAt_lit]

theorem RoundTrip.uxtab (c rn rd rot rm) : RoundTrip.Statement (.uxtab c rn rd rot rm) := by
  intro h
  have h : rn ≠ 15 := by simpa [Instr.wf, notAll1] using h
  refine ⟨_, rfl, ?_, ?_, ?_⟩
  · simp (disch := first | decide | assumption) [Row.accepts, encode, flag, or_and_mask, place_and_zero, condF, cond_place_ne, postW, noPUW, field12Ones, field16Ones, place_one, place_zero, IndexMode.p, IndexMode.w, BlockMode.p, BlockMode.u, place16_ne, place12_ne, h]
  · simp (disch := decide) [Row.proper, encode, flag, or_and_mask, place_and_zero, postW, noPUW, place_one, place_zero, IndexMode.p, IndexMode.w, BlockMode.p, BlockMode.u]
  · simp (disch := decide) [encode, flag, field_or, bitAt_or, field_place_same, field_place_disjoint, bitAt_place_same, bitAt_place_disjoint, cond_ofCode_code, shift_ofCode_code, indexMode_of, blockMode_of, join8, join16, field_lit, bitAt_lit]

theorem RoundTrip.uxtb (c rd rot rm) : RoundTrip.Statement (.uxtb c rd rot rm) := by
  intro h
  refine ⟨_, rfl, ?_, ?_, ?_⟩
  · simp (disch := first | decide | assumption) [Row.accepts, encode, flag, or_and_mask, place_and_zero, condF, cond_place_ne, postW, noPUW, field12Ones, field16Ones, place_one, place_zero, IndexMode.p, IndexMode.w, BlockMode.p, BlockMode.u, place16_ne, place12_ne]
  · simp (disch := decide) [Row.proper, encode, flag, or_and_mask, place_and_zero, postW, noPUW, place_one, place_zero, IndexMode.p, IndexMode.w, BlockMode.p, BlockMode.u]
  · simp (disch := decide) [encode, flag, field_or, bitAt_or, field_place_same, field_place_disjoint, bitAt_place_same, bitAt_place_disjoint, cond_ofCode_code, shift_ofCode_code, indexMode_of, blockMode_of, join8, join16, field_lit, bitAt_lit]

theorem RoundTrip.uxtah (c rn rd rot rm) : RoundTrip.Statement (.uxtah c rn rd rot rm) := by
  intro h
  have h : rn ≠ 15 := by simpa [Instr.wf, notAll1] using h
  refine ⟨_, rfl, ?_, ?_, ?_⟩
  · simp (disch := first | decide | assumption) [Row.accepts, encode, flag, or_and_mask, place_and_zero, condF, cond_place_ne, postW, noPUW, field12Ones, field16Ones, place_one, place_zero, IndexMode.p, IndexMode.w, BlockMode.p, BlockMode.u, place16_ne, place12_ne, h]
  · simp (disch := decide) [Row.proper, encode, flag, or_and_mask, place_and_zero, postW, noPUW, place_one, place_zero, IndexMode.p, IndexMode.w, BlockMode.p, BlockMode.u]
  · simp (disch := decide) [encode, flag, field_or, bitAt_or, field_place_same, field_place_disjoint, bitAt_place_same, bitAt_place_disjoint, cond_ofCode_code, shift_ofCode_code, indexMode_of, blockMode_of, join8, join16, field_lit, bitAt_lit]

theorem RoundTrip.uxth (c rd rot rm) : RoundTrip.Statement (.uxth c rd rot rm) := by
  intro h
  refine ⟨_, rfl, ?_, ?_, ?_⟩
  · simp (disch := first | decide | assumption) [Row.accepts, encode, flag, or_and_mask, place_and_zero, condF, cond_place_ne, postW, noPUW, field12Ones, field16Ones, place_one, place_zero, IndexMode.p, IndexMode.w, BlockMode.p, BlockMode.u, place16_ne, place12_ne]
  · simp (disch := decide) [Row.proper, encode, flag, or_and_mask, place_and_zero, postW, noPUW, place_one, place_zero, IndexMode.p, IndexMode.w, BlockMode.p, BlockMode.u]
  · simp (disch := decide) [encode, flag, field_or, bitAt_or, field_place_same, field_place_disjoint, bitAt_place_same, bitAt_place_disjoint, cond_ofCode_code, shift_ofCode_code, indexMode_of, blockMode_of, join8, join16, field_lit, bitAt_lit]

theorem RoundTrip.clz (c rd rm) : RoundTrip.Statement (.clz c rd rm) := by
  intro h
  refine ⟨_, rfl, ?_, ?_, ?_⟩
  · simp (disch := first | decide | assumption) [Row.accepts, encode, flag, or_and_mask, place_and_zero, condF, cond_place_ne, postW, noPUW, field12Ones, field16Ones, place_one, place_zero, IndexMode.p, IndexMode.w, BlockMode.p, BlockMode.u, place16_ne, place12_ne]
  · simp (disch := decide) [Row.proper, encode, flag, or_and_mask, place_and_zero, postW, noPUW, place_one, place_zero, IndexMode.p, IndexMode.w, BlockMode.p, BlockMode.u]
  · simp (disch := decide) [encode, flag, field_or, bitAt_or, field_place_same, field_place_disjoint, bitAt_place_same, bitAt_place_disjoint, cond_ofCode_code, shift_ofCode_code, indexMode_of, blockMode_of, join8, join16, field_lit, bitAt_lit]

theorem RoundTrip.usad8 (c rd rs rm) : RoundTrip.Statement (.usad8 c rd rs rm) := by
  intro h
  refine ⟨_, rfl, ?_, ?_, ?_⟩
  · simp (disch := first | decide | assumption) [Row.accepts, encode, flag, or_and_mask, place_and_zero, condF, cond_place_ne, postW, noPUW, field12Ones, field16Ones, place_one, place_zero, IndexMode.p, IndexMode.w, BlockMode.p, BlockMode.u, place16_ne, place12_ne]
  · simp (disch := decide) [Row.proper, encode, flag, or_and_mask, place_and_zero, postW, noPUW, place_one, place_zero, IndexMode.p, IndexMode.w, BlockMode.p, BlockMode.u]
  · simp (disch := decide) [encode, flag, field_or, bitAt_or, field_place_same, field_place_disjoint, bitAt_place_same, bitAt_place_disjoint, cond_ofCode_code, shift_ofCode_code, indexMode_of, blockMode_of, join8, join16, field_lit, bitAt_lit]

theorem RoundTrip.usada8 (c rd rn rs rm) : RoundTrip.Statement (.usada8 c rd rn rs rm) := by
  intro h
  have h : rn ≠ 15 := by simpa [Instr.wf, notAll1] using h
  refine ⟨_, rfl, ?_, ?_, ?_⟩
  · simp (disch := first | decide | assumption) [Row.accepts, encode, flag, or_and_mask, place_and_zero, condF, cond_place_ne, postW, noPUW, field12Ones, field16Ones, place_one, place_zero, IndexMode.p, IndexMode.w, BlockMode.p, BlockMode.u, place16_ne, place12_ne, h]
  · simp (disch := decide) [Row.proper, encode, flag, or_and_mask, place_and_zero, postW, noPUW, place_one, place_zero, IndexMode.p, IndexMode.w, BlockMode.p, BlockMode.u]
  · simp (disch := decide) [encode, flag, field_or, bitAt_or, field_place_same, field_place_disjoint, bitAt_place_same, bitAt_place_disjoint, cond_ofCode_code, shift_ofCode_code, indexMode_of, blockMode_of, join8, join16, field_lit, bitAt_lit]

theorem RoundTrip.pkhbt (c rn rd imm5 rm) : RoundTrip.Statement (.pkhbt c rn rd imm5 rm) := by
  intro h
  refine ⟨_, rfl, ?_, ?_, ?_⟩
  · simp (disch := first | decide | assumption) [Row.accepts, encode, flag, or_and_mask, place_and_zero, condF, cond_place_ne, postW, noPUW, field12Ones, field16Ones, place_one, place_zero, IndexMode.p, IndexMode.w, BlockMode.p, BlockMode.u, place16_ne, place12_ne]
  · simp (disch := decide) [Row.proper, encode, flag, or_and_mask, place_and_zero, postW, noPUW, place_one, place_zero, IndexMode.p, IndexMode.w, BlockMode.p, BlockMode.u]
  · simp (disch := decide) [encode, flag, field_or, bitAt_or, field_place_same, field_place_disjoint, bitAt_place_same, bitAt_place_disjoint, cond_ofCode_code, shift_ofCode_code, indexMode_of, blockMode_of, join8, join16, field_lit, bitAt_lit]

theorem RoundTrip.pkhtb (c rn rd imm5 rm) : RoundTrip.Statement (.pkhtb c rn rd imm5 rm) := by
  intro h
  refine ⟨_, rfl, ?_, ?_, ?_⟩
  · simp (disch := first | decide | assumption) [Row.accepts, encode, flag, or_and_mask, place_and_zero, condF, cond_place_ne, postW, noPUW, field12Ones, field16Ones, place_one, place_zero, IndexMode.p, IndexMode.w, BlockMode.p, BlockMode.u, place16_ne, place12_ne]
  · simp (disch := decide) [Row.proper, encode, flag, or_and_mask, place_and_zero, postW, noPUW, place_one, place_zero, IndexMode.p, IndexMode.w, BlockMode.p, BlockMode.u]
  · simp (disch := decide) [encode, flag, field_or, bitAt_or, field_place_same, field_place_disjoint, bitAt_place_same, bitAt_place_disjoint, cond_ofCode_code, shift_ofCode_code, indexMode_of, blockMode_of, join8, join16, field_lit, bitAt_lit]

theorem RoundTrip.rev (c rd rm) : RoundTrip.Statement (.rev c rd rm) := by
  intro h
  refine ⟨_, rfl, ?_, ?_, ?_⟩
  · simp (disch := first | decide | assumption) [Row.accepts, encode, flag, or_and_mask, place_and_zero, condF, cond_place_ne, postW, noPUW, field12Ones, field16Ones, place_one, place_zero, IndexMode.p, IndexMode.w, BlockMode.p, BlockMode.u, place16_ne, place12_ne]
  · simp (disch := decide) [Row.proper, encode, flag, or_and_mask, place_and_zero, postW, noPUW, place_one, place_zero, IndexMode.p, IndexMode.w, BlockMode.p, BlockMode.u]
  · simp (disch := decide) [encode, flag, field_or, bitAt_or, field_place_same, field_place_disjoint, bitAt_place_same, bitAt_place_disjoint, cond_ofCode_code, shift_ofCode_code, indexMode_of, blockMode_of, join8, join16, field_lit, bitAt_lit]

theorem RoundTrip.rev16 (c rd rm) : RoundTrip.Statement (.rev16 c rd rm) := by
  intro h
  refine ⟨_, rfl, ?_, ?_, ?_⟩
  · simp (disch := first | decide | assumption) [Row.accepts, encode, flag, or_and_mask, place_and_zero, condF, cond_place_ne, postW, noPUW, field12Ones, field16Ones, place_one, place_zero, IndexMode.p, IndexMode.w, BlockMode.p, BlockMode.u, place16_ne, place12_ne]
  · simp (disch := decide) [Row.proper, encode, flag, or_and_mask, place_and_zero, postW, noPUW, place_one, place_zero, IndexMode.p, IndexMode.w, BlockMode.p, BlockMode.u]
  · simp (disch := decide) [encode, flag, field_or, bitAt_or, field_place_same, field_place_disjoint, bitAt_place_same, bitAt_place_disjoint, cond_ofCode_code, shift_ofCode_code, indexMode_of, blockMode_of, join8, join16, field_lit, bitAt_lit]

theorem RoundTrip.revsh (c rd rm) : RoundTrip.Statement (.revsh c rd rm) := by
  intro h
  refine ⟨_, rfl, ?_, ?_, ?_⟩
  · simp (disch := first | decide | assumption) [Row.accepts, encode, flag, or_and_mask, place_and_zero, condF, cond_place_ne, postW, noPUW, field12Ones, field16Ones, place_one, place_zero, IndexMode.p, IndexMode.w, BlockMode.p, BlockMode.u, place16_ne, place12_ne]
  · simp (disch := decide) [Row.proper, encode, flag, or_and_mask, place_and_zero, postW, noPUW, place_one, place_zero, IndexMode.p, IndexMode.w, BlockMode.p, BlockMode.u]
  · simp (disch := decide) [encode, flag, field_or, bitAt_or, field_place_same, field_place_disjoint, bitAt_place_same, bitAt_place_disjoint, cond_ofCode_code, shift_ofCode_code, indexMode_of, blockMode_of, join8, join16, field_lit, bitAt_lit]

theorem RoundTrip.sel (c rn rd rm) : RoundTrip.Statement (.sel c rn rd rm) := by
  intro h
  refine ⟨_, rfl, ?_, ?_, ?_⟩
  · simp (disch := first | decide | assumption) [Row.accepts, encode, flag, or_and_mask, place_and_zero, condF, cond_place_ne, postW, noPUW, field12Ones, field16Ones, place_one, place_zero, IndexMode.p, IndexMode.w, BlockMode.p, BlockMode.u, place16_ne, place12_ne]
  · simp (disch := decide) [Row.proper, encode, flag, or_and_mask, place_and_zero, postW, noPUW, place_one, place_zero, IndexMode.p, IndexMode.w, BlockMode.p, BlockMode.u]
  · simp (disch := decide) [encode, flag, field_or, bitAt_or, field_place_same, field_place_disjoint, bitAt_place_same, bitAt_place_disjoint, cond_ofCode_code, shift_ofCode_code, indexMode_of, blockMode_of, join8, join16, field_lit, bitAt_lit]

theorem RoundTrip.ssat (c sat rd imm5 sh rm) : RoundTrip.Statement (.ssat c sat rd imm5 sh rm) := by
  intro h
  refine ⟨_, rfl, ?_, ?_, ?_⟩
  · simp (disch := first | decide | assumption) [Row.accepts, encode, flag, or_and_mask, place_and_zero, condF, cond_place_ne, postW, noPUW, field12Ones, field16Ones, place_one, place_zero, IndexMode.p, IndexMode.w, BlockMode.p, BlockMode.u, place16_ne, place12_ne]
  · simp (disch := decide) [Row.proper, encode, flag, or_and_mask, place_and_zero, postW, noPUW, place_one, place_zero, IndexMode.p, IndexMode.w, BlockMode.p, BlockMode.u]
  · simp (disch := decide) [encode, flag, field_or, bitAt_or, field_place_same, field_place_disjoint, bitAt_place_same, bitAt_place_disjoint, cond_ofCode_code, shift_ofCode_code, indexMode_of, blockMode_of, join8, join16, field_lit, bitAt_lit]

theorem RoundTrip.ssat16 (c sat rd rm) : RoundTrip.Statement (.ssat16 c sat rd rm) := by
  intro h
  refine ⟨_, rfl, ?_, ?_, ?_⟩
  · simp (disch := first | decide | assumption) [Row.accepts, encode, flag, or_and_mask, place_and_zero, condF, cond_place_ne, postW, noPUW, field12Ones, field16Ones, place_one, place_zero, IndexMode.p, IndexMode.w, BlockMode.p, BlockMode.u, place16_ne, place12_ne]
  · simp (disch := decide) [Row.proper, encode, flag, or_and_mask, place_and_zero, postW, noPUW, place_one, place_zero, IndexMode.p, IndexMode.w, BlockMode.p, BlockMode.u]
  · simp (disch := decide) [encode, flag, field_or, bitAt_or, field_place_same, field_place_disjoint, bitAt_place_same, bitAt_place_disjoint, cond_ofCode_code, shift_ofCode_code, indexMode_of, blockMode_of, join8, join16, field_lit, bitAt_lit]

theorem RoundTrip.usat (c sat rd imm5 sh rm) : RoundTrip.Statement (.usat c sat rd imm5 sh rm) := by
  intro h
  refine ⟨_, rfl, ?_, ?_, ?_⟩
  · simp (disch := first | decide | assumption) [Row.accepts, encode, flag, or_and_mask, place_and_zero, condF, cond_place_ne, postW, noPUW, field12Ones, field16Ones, place_one, place_zero, IndexMode.p, IndexMode.w, BlockMode.p, BlockMode.u, place16_ne, place12_ne]
  · simp (disch := decide) [Row.proper, encode, flag, or_and_mask, place_and_zero, postW, noPUW, place_one, place_zero, IndexMode.p, IndexMode.w, BlockMode.p, BlockMode.u]
  · simp (disch := decide) [encode, flag, field_or, bitAt_or, field_place_same, field_place_disjoint, bitAt_place_same, bitAt_place_disjoint, cond_ofCode_code, shift_ofCode_code, indexMode_of, blockMode_of, join8, join16, field_lit, bitAt_lit]

theorem RoundTrip.usat16 (c sat rd rm) : RoundTrip.Statement (.usat16 c sat rd rm) := by
  intro h
  refine ⟨_, rfl, ?_, ?_, ?_⟩
  · simp (disch := first | decide | assumption) [Row.accepts, encode, flag, or_and_mask, place_and_zero, condF, cond_place_ne, postW, noPUW, field12Ones, field16Ones, place_one, place_zero, IndexMode.p, IndexMode.w, BlockMode.p, BlockMode.u, place16_ne, place12_ne]
  · simp (disch := decide) [Row.proper, encode, flag, or_and_mask, place_and_zero, postW, noPUW, place_one, place_zero, IndexMode.p, IndexMode.w, BlockMode.p, BlockMode.u]
  · simp (disch := decide) [encode, flag, field_or, bitAt_or, field_place_same, field_place_disjoint, bitAt_place_same, bitAt_place_disjoint, cond_ofCode_code, shift_ofCode_code, indexMode_of, blockMode_of, join8, join16, field_lit, bitAt_lit]

theorem RoundTrip.qadd (c rn rd rm) : RoundTrip.Statement (.qadd c rn rd rm) := by
  intro h
  refine ⟨_, rfl, ?_, ?_, ?_⟩
  · simp (disch := first | decide | assumption) [Row.accepts, encode, flag, or_and_mask, place_and_zero, condF, cond_place_ne, postW, noPUW, field12Ones, field16Ones, place_one, place_zero, IndexMode.p, IndexMode.w, BlockMode.p, BlockMode.u, place16_ne, place12_ne]
  · simp (disch := decide) [Row.proper, encode, flag, or_and_mask, place_and_zero, postW, noPUW, place_one, place_zero, IndexMode.p, IndexMode.w, BlockMode.p, BlockMode.u]
  · simp (disch := decide) [encode, flag, field_or, bitAt_or, field_place_same, field_place_disjoint, bitAt_place_same, bitAt_place_disjoint, cond_ofCode_code, shift_ofCode_code, indexMode_of, blockMode_of, join8, join16, field_lit, bitAt_lit]

theorem RoundTrip.qsub (c rn rd rm) : RoundTrip.Statement (.qsub c rn rd rm) := by
  intro h
  refine ⟨_, rfl, ?_, ?_, ?_⟩
  · simp (disch := first | decide | assumption) [Row.accepts, encode, flag, or_and_mask, place_and_zero, condF, cond_place_ne, postW, noPUW, field12Ones, field16Ones, place_one, place_zero, IndexMode.p, IndexMode.w, BlockMode.p, BlockMode.u, place16_ne, place12_ne]
  · simp (disch := decide) [Row.proper, encode, flag, or_and_mask, place_and_zero, postW, noPUW, place_one, place_zero, IndexMode.p, IndexMode.w, BlockMode.p, BlockMode.u]
  · simp (disch := decide) [encode, flag, field_or, bitAt_or, field_place_same, field_place_disjoint, bitAt_place_same, bitAt_place_disjoint, cond_ofCode_code, shift_ofCode_code, indexMode_of, blockMode_of, join8, join16, field_lit, bitAt_lit]

theorem RoundTrip.qdadd (c rn rd rm) : RoundTrip.Statement (.qdadd c rn rd rm) := by
  intro h
  refine ⟨_, rfl, ?_, ?_, ?_⟩
  · simp (disch := first | decide | assumption) [Row.accepts, encode, flag, or_and_mask, place_and_zero, condF, cond_place_ne, postW, noPUW, field12Ones, field16Ones, place_one, place_zero, IndexMode.p, IndexMode.w, BlockMode.p, BlockMode.u, place16_ne, place12_ne]
  · simp (disch := decide) [Row.proper, encode, flag, or_and_mask, place_and_zero, postW, noPUW, place_one, place_zero, IndexMode.p, IndexMode.w, BlockMode.p, BlockMode.u]
  · simp (disch := decide) [encode, flag, field_or, bitAt_or, field_place_same, field_place_disjoint, bitAt_place_same, bitAt_place_disjoint, cond_ofCode_code, shift_ofCode_code, indexMode_of, blockMode_of, join8, join16, field_lit, bitAt_lit]

theorem RoundTrip.qdsub (c rn rd rm) : RoundTrip.Statement (.qdsub c rn rd rm) := by
  intro h
  refine ⟨_, rfl, ?_, ?_, ?_⟩
  · simp (disch := first | decide | assumption) [Row.accepts, encode, flag, or_and_mask, place_and_zero, condF, cond_place_ne, postW, noPUW, field12Ones, field16Ones, place_one, place_zero, IndexMode.p, IndexMode.w, BlockMode.p, BlockMode.u, place16_ne, place12_ne]
  · simp (disch := decide) [Row.proper, encode, flag, or_and_mask, place_and_zero, postW, noPUW, place_one, place_zero, IndexMode.p, IndexMode.w, BlockMode.p, BlockMode.u]
  · simp (disch := decide) [encode, flag, field_or, bitAt_or, field_place_same, field_place_disjoint, bitAt_place_same, bitAt_place_disjoint, cond_ofCode_code, shift_ofCode_code, indexMode_of, blockMode_of, join8, join16, field_lit, bitAt_lit]

theorem RoundTrip.mrs (c r rd) : RoundTrip.Statement (.mrs c r rd) := by
  intro h
  refine ⟨_, rfl, ?_, ?_, ?_⟩
  · simp (disch := first | decide | assumption) [Row.accepts, encode, flag, or_and_mask, place_and_zero, condF, cond_place_ne, postW, noPUW, field12Ones, field16Ones, place_one, place_zero, IndexMode.p, IndexMode.w, BlockMode.p, BlockMode.u, place16_ne, place12_ne]
  · simp (disch := decide) [Row.proper, encode, flag, or_and_mask, place_and_zero, postW, noPUW, place_one, place_zero, IndexMode.p, IndexMode.w, BlockMode.p, BlockMode.u]
  · simp (disch := decide) [encode, flag, field_or, bitAt_or, field_place_same, field_place_disjoint, bitAt_place_same, bitAt_place_disjoint, cond_ofCode_code, shift_ofCode_code, indexMode_of, blockMode_of, join8, join16, field_lit, bitAt_lit]

theorem RoundTrip.msrImm (c r mask rot imm8) : RoundTrip.Statement (.msrImm c r mask rot imm8) := by
  intro h
  refine ⟨_, rfl, ?_, ?_, ?_⟩
  · simp (disch := first | decide | assumption) [Row.accepts, encode, flag, or_and_mask, place_and_zero, condF, cond_place_ne, postW, noPUW, field12Ones, field16Ones, place_one, place_zero, IndexMode.p, IndexMode.w, BlockMode.p, BlockMode.u, place16_ne, place12_ne]
  · simp (disch := decide) [Row.proper, encode, flag, or_and_mask, place_and_zero, postW, noPUW, place_one, place_zero, IndexMode.p, IndexMode.w, BlockMode.p, BlockMode.u]
  · simp (disch := decide) [encode, flag, field_or, bitAt_or, field_place_same, field_place_disjoint, bitAt_place_same, bitAt_place_disjoint, cond_ofCode_code, shift_ofCode_code, indexMode_of, blockMode_of, join8, join16, field_lit, bitAt_lit]

theorem RoundTrip.msrReg (c r mask rm) : RoundTrip.Statement (.msrReg c r mask rm) := by
  intro h
  refine ⟨_, rfl, ?_, ?_, ?_⟩
  · simp (disch := first | decide | assumption) [Row.accepts, encode, flag, or_and_mask, place_and_zero, condF, cond_place_ne, postW, noPUW, field12Ones, field16Ones, place_one, place_zero, IndexMode.p, IndexMode.w, BlockMode.p, BlockMode.u, place16_ne, place12_ne]
  · simp (disch := decide) [Row.proper, encode, flag, or_and_mask, place_and_zero, postW, noPUW, place_one, place_zero, IndexMode.p, IndexMode.w, BlockMode.p, BlockMode.u]
  · simp (disch := decide) [encode, flag, field_or, bitAt_or, field_place_same, field_place_disjoint, bitAt_place_same, bitAt_place_disjoint, cond_ofCode_code, shift_ofCode_code, indexMode_of, blockMode_of, join8, join16, field_lit, bitAt_lit]

theorem RoundTrip.cps (imod mmod a i f mode) : RoundTrip.Statement (.cps imod mmod a i f mode) := by
  intro h
  refine ⟨_, rfl, ?_, ?_, ?_⟩
  · simp (disch := first | decide | assumption) [Row.accepts, encode, flag, or_and_mask, place_and_zero, condF, cond_place_ne, postW, noPUW, field12Ones, field16Ones, place_one, place_zero, IndexMode.p, IndexMode.w, BlockMode.p, BlockMode.u, place16_ne, place12_ne]
  · simp (disch := decide) [Row.proper, encode, flag, or_and_mask, place_and_zero, postW, noPUW, place_one, place_zero, IndexMode.p, IndexMode.w, BlockMode.p, BlockMode.u]
  · simp (disch := decide) [encode, flag, field_or, bitAt_or, field_place_same, field_place_disjoint, bitAt_place_same, bitAt_place_disjoint, cond_ofCode_code, shift_ofCode_code, indexMode_of, blockMode_of, join8, join16, field_lit, bitAt_lit]

theorem RoundTrip.setend (e) : RoundTrip.Statement (.setend e) := by
  intro h
  refine ⟨_, rfl, ?_, ?_, ?_⟩
  · simp (disch := first | decide | assumption) [Row.accepts, encode, flag, or_and_mask, place_and_zero, condF, cond_place_ne, postW, noPUW, field12Ones, field16Ones, place_one, place_zero, IndexMode.p, IndexMode.w, BlockMode.p, BlockMode.u, place16_ne, place12_ne]
  · simp (disch := decide) [Row.proper, encode, flag, or_and_mask, place_and_zero, postW, noPUW, place_one, place_zero, IndexMode.p, IndexMode.w, BlockMode.p, BlockMode.u]
  · simp (disch := decide) [encode, flag, field_or, bitAt_or, field_place_same, field_place_disjoint, bitAt_place_same, bitAt_place_disjoint, cond_ofCode_code, shift_ofCode_code, indexMode_of, blockMode_of, join8, join16, field_lit, bitAt_lit]

theorem RoundTrip.b (c imm24) : RoundTrip.Statement (.b c imm24) := by
  intro h
  refine ⟨_, rfl, ?_, ?_, ?_⟩
  · simp (disch := first | decide | assumption) [Row.accepts, encode, flag, or_and_mask, place_and_zero, condF, cond_place_ne, postW, noPUW, field12Ones, field16Ones, place_one, place_zero, IndexMode.p, IndexMode.w, BlockMode.p, BlockMode.u, place16_ne, place12_ne]
  · simp (disch := decide) [Row.proper, encode, flag, or_and_mask, place_and_zero, postW, noPUW, place_one, place_zero, IndexMode.p, IndexMode.w, BlockMode.p, BlockMode.u]
  · simp (disch := decide) [encode, flag, field_or, bitAt_or, field_place_same, field_place_disjoint, bitAt_place_same, bitAt_place_disjoint, cond_ofCode_code, shift_ofCode_code, indexMode_of, blockMode_of, join8, join16, field_lit, bitAt_lit]

theorem RoundTrip.bl (c imm24) : RoundTrip.Statement (.bl c imm24) := by
  intro h
  refine ⟨_, rfl, ?_, ?_, ?_⟩
  · simp (disch := first | decide | assumption) [Row.accepts, encode, flag, or_and_mask, place_and_zero, condF, cond_place_ne, postW, noPUW, field12Ones, field16Ones, place_one, place_zero, IndexMode.p, IndexMode.w, BlockMode.p, BlockMode.u, place16_ne, place12_ne]
  · simp (disch := decide) [Row.proper, encode, flag, or_and_mask, place_and_zero, postW, noPUW, place_one, place_zero, IndexMode.p, IndexMode.w, BlockMode.p, BlockMode.u]
  · simp (disch := decide) [encode, flag, field_or, bitAt_or, field_place_same, field_place_disjoint, bitAt_place_same, bitAt_place_disjoint, cond_ofCode_code, shift_ofCode_code, indexMode_of, blockMode_of, join8, join16, field_lit, bitAt_lit]

theorem RoundTrip.blx1 (h imm24) : RoundTrip.Statement (.blx1 h imm24) := by
  intro h
  refine ⟨_, rfl, ?_, ?_, ?_⟩
  · simp (disch := first | decide | assumption) [Row.accepts, encode, flag, or_and_mask, place_and_zero, condF, cond_place_ne, postW, noPUW, field12Ones, field16Ones, place_one, place_zero, IndexMode.p, IndexMode.w, BlockMode.p, BlockMode.u, place16_ne, place12_ne]
  · simp (disch := decide) [Row.proper, encode, flag, or_and_mask, place_and_zero, postW, noPUW, place_one, place_zero, IndexMode.p, IndexMode.w, BlockMode.p, BlockMode.u]
  · simp (disch := decide) [encode, flag, field_or, bitAt_or, field_place_same, field_place_disjoint, bitAt_place_same, bitAt_place_disjoint, cond_ofCode_code, shift_ofCode_code, indexMode_of, blockMode_of, join8, join16, field_lit, bitAt_lit]

theorem RoundTrip.blx2 (c rm) : RoundTrip.Statement (.blx2 c rm) := by
  intro h
  refine ⟨_, rfl, ?_, ?_, ?_⟩
  · simp (disch := first | decide | assumption) [Row.accepts, encode, flag, or_and_mask, place_and_zero, condF, cond_place_ne, postW, noPUW, field12Ones, field16Ones, place_one, place_zero, IndexMode.p, IndexMode.w, BlockMode.p, BlockMode.u, place16_ne, place12_ne]
  · simp (disch := decide) [Row.proper, encode, flag, or_and_mask, place_and_zero, postW, noPUW, place_one, place_zero, IndexMode.p, IndexMode.w, BlockMode.p, BlockMode.u]
  · simp (disch := decide) [encode, flag, field_or, bitAt_or, field_place_same, field_place_disjoint, bitAt_place_same, bitAt_place_disjoint, cond_ofCode_code, shift_ofCode_code, indexMode_of, blockMode_of, join8, join16, field_lit, bitAt_lit]

theorem RoundTrip.bx (c rm) : RoundTrip.Statement (.bx c rm) := by
  intro h
  refine ⟨_, rfl, ?_, ?_, ?_⟩
  · simp (disch := first | decide | assumption) [Row.accepts, encode, flag, or_and_mask, place_and_zero, condF, cond_place_ne, postW, noPUW, field12Ones, field16Ones, place_one, place_zero, IndexMode.p, IndexMode.w, BlockMode.p, BlockMode.u, place16_ne, place12_ne]
  · simp (disch := decide) [Row.proper, encode, flag, or_and_mask, place_and_zero, postW, noPUW, place_one, place_zero, IndexMode.p, IndexMode.w, BlockMode.p, BlockMode.u]
  · simp (disch := decide) [encode, flag, field_or, bitAt_or, field_place_same, field_place_disjoint, bitAt_place_same, bitAt_place_disjoint, cond_ofCode_code, shift_ofCode_code, indexMode_of, blockMode_of, join8, join16, field_lit, bitAt_lit]

theorem RoundTrip.bxj (c rm) : RoundTrip.Statement (.bxj c rm) := by
  intro h
  refine ⟨_, rfl, ?_, ?_, ?_⟩
  · simp (disch := first | decide | assumption) [Row.accepts, encode, flag, or_and_mask, place_and_zero, condF, cond_place_ne, postW, noPUW, field12Ones, field16Ones, place_one, place_zero, IndexMode.p, IndexMode.w, BlockMode.p, BlockMode.u, place16_ne, place12_ne]
  · simp (disch := decide) [Row.proper, encode, flag, or_and_mask, place_and_zero, postW, noPUW, place_one, place_zero, IndexMode.p, IndexMode.w, BlockMode.p, BlockMode.u]
  · simp (disch := decide) [encode, flag, field_or, bitAt_or, field_place_same, field_place_disjoint, bitAt_place_same, bitAt_place_disjoint, cond_ofCode_code, shift_ofCode_code, indexMode_of, blockMode_of, join8, join16, field_lit, bitAt_lit]

theorem RoundTrip.ldrImm (c im u rn rd imm12) : RoundTrip.Statement (.ldrImm c im u rn rd imm12) := by
  intro h
  refine ⟨_, rfl, ?_, ?_, ?_⟩
  · cases im <;> simp (disch := first | decide | assumption) [Row.accepts, encode, flag, or_and_mask, place_and_zero, condF, cond_place_ne, postW, noPUW, field12Ones, field16Ones, place_one, place_zero, IndexMode.p, IndexMode.w, BlockMode.p, BlockMode.u, place16_ne, place12_ne]
  · cases im <;> simp (disch := decide) [Row.proper, encode, flag, or_and_mask, place_and_zero, postW, noPUW, place_one, place_zero, IndexMode.p, IndexMode.w, BlockMode.p, BlockMode.u]
  · simp (disch := decide) [encode, flag, field_or, bitAt_or, field_place_same, field_place_disjoint, bitAt_place_same, bitAt_place_disjoint, cond_ofCode_code, shift_ofCode_code, indexMode_of, blockMode_of, join8, join16, field_lit, bitAt_lit]

theorem RoundTrip.ldrReg (c im u rn rd imm5 ty rm) : RoundTrip.Statement (.ldrReg c im u rn rd imm5 ty rm) := by
  intro h
  refine ⟨_, rfl, ?_, ?_, ?_⟩
  · cases im <;> simp (disch := first | decide | assumption) [Row.accepts, encode, flag, or_and_mask, place_and_zero, condF, cond_place_ne, postW, noPUW, field12Ones, field16Ones, place_one, place_zero, IndexMode.p, IndexMode.w, BlockMode.p, BlockMode.u, place16_ne, place12_ne]
  · cases im <;> simp (disch := decide) [Row.proper, encode, flag, or_and_mask, place_and_zero, postW, noPUW, place_one, place_zero, IndexMode.p, IndexMode.w, BlockMode.p, BlockMode.u]
  · simp (disch := decide) [encode, flag, field_or, bitAt_or, field_place_same, field_place_disjoint, bitAt_place_same, bitAt_place_disjoint, cond_ofCode_code, shift_ofCode_code, indexMode_of, blockMode_of, join8, join16, field_lit, bitAt_lit]

theorem RoundTrip.ldrbImm (c im u rn rd imm12) : RoundTrip.Statement (.ldrbImm c im u rn rd imm12) := by
  intro h
  refine ⟨_, rfl, ?_, ?_, ?_⟩
  · cases im <;> simp (disch := first | decide | assumption) [Row.accepts, encode, flag, or_and_mask, place_and_zero, condF, cond_place_ne, postW, noPUW, field12Ones, field16Ones, place_one, place_zero, IndexMode.p, IndexMode.w, BlockMode.p, BlockMode.u, place16_ne, place12_ne]
  · cases im <;> simp (disch := decide) [Row.proper, encode, flag, or_and_mask, place_and_zero, postW, noPUW, place_one, place_zero, IndexMode.p, IndexMode.w, BlockMode.p, BlockMode.u]
  · simp (disch := decide) [encode, flag, field_or, bitAt_or, field_place_same, field_place_disjoint, bitAt_place_same, bitAt_place_disjoint, cond_ofCode_code, shift_ofCode_code, indexMode_of, blockMode_of, join8, join16, field_lit, bitAt_lit]

theorem RoundTrip.ldrbReg (c im u rn rd imm5 ty rm) : RoundTrip.Statement (.ldrbReg c im u rn rd imm5 ty rm) := by
  intro h
  refine ⟨_, rfl, ?_, ?_, ?_⟩
  · cases im <;> simp (disch := first | decide | assumption) [Row.accepts, encode, flag, or_and_mask, place_and_zero, condF, cond_place_ne, postW, noPUW, field12Ones, field16Ones, place_one, place_zero, IndexMode.p, IndexMode.w, BlockMode.p, BlockMode.u, place16_ne, place12_ne]
  · cases im <;> simp (disch := decide) [Row.proper, encode, flag, or_and_mask, place_and_zero, postW, noPUW, place_one, place_zero, IndexMode.p, IndexMode.w, BlockMode.p, BlockMode.u]
  · simp (disch := decide) [encode, flag, field_or, bitAt_or, field_place_same, field_place_disjoint, bitAt_place_same, bitAt_place_disjoint, cond_ofCode_code, shift_ofCode_code, indexMode_of, blockMode_of, join8, join16, field_lit, bitAt_lit]

theorem RoundTrip.strImm (c im u rn rd imm12) : RoundTrip.Statement (.strImm c im u rn rd imm12) := by
  intro h
  refine ⟨_, rfl, ?_, ?_, ?_⟩
  · cases im <;> simp (disch := first | decide | assumption) [Row.accepts, encode, flag, or_and_mask, place_and_zero, condF, cond_place_ne, postW, noPUW, field12Ones, field16Ones, place_one, place_zero, IndexMode.p, IndexMode.w, BlockMode.p, BlockMode.u, place16_ne, place12_ne]
  · cases im <;> simp (disch := decide) [Row.proper, encode, flag, or_and_mask, place_and_zero, postW, noPUW, place_one, place_zero, IndexMode.p, IndexMode.w, BlockMode.p, BlockMode.u]
  · simp (disch := decide) [encode, flag, field_or, bitAt_or, field_place_same, field_place_disjoint, bitAt_place_same, bitAt_place_disjoint, cond_ofCode_code, shift_ofCode_code, indexMode_of, blockMode_of, join8, join16, field_lit, bitAt_lit]

theorem RoundTrip.strReg (c im u rn rd imm5 ty rm) : RoundTrip.Statement (.strReg c im u rn rd imm5 ty rm) := by
  intro h
  refine ⟨_, rfl, ?_, ?_, ?_⟩
  · cases im <;> simp (disch := first | decide | assumption) [Row.accepts, encode, flag, or_and_mask, place_and_zero, condF, cond_place_ne, postW, noPUW, field12Ones, field16Ones, place_one, place_zero, IndexMode.p, IndexMode.w, BlockMode.p, BlockMode.u, place16_ne, place12_ne]
  · cases im <;> simp (disch := decide) [Row.proper, encode, flag, or_and_mask, place_and_zero, postW, noPUW, place_one, place_zero, IndexMode.p, IndexMode.w, BlockMode.p, BlockMode.u]
  · simp (disch := decide) [encode, flag, field_or, bitAt_or, field_place_same, field_place_disjoint, bitAt_place_same, bitAt_place_disjoint, cond_ofCode_code, shift_ofCode_code, indexMode_of, blockMode_of, join8, join16, field_lit, bitAt_lit]

theorem RoundTrip.strbImm (c im u rn rd imm12) : RoundTrip.Statement (.strbImm c im u rn rd imm12) := by
  intro h
  refine ⟨_, rfl, ?_, ?_, ?_⟩
  · cases im <;> simp (disch := first | decide | assumption) [Row.accepts, encode, flag, or_and_mask, place_and_zero, condF, cond_place_ne, postW, noPUW, field12Ones, field16Ones, place_one, place_zero, IndexMode.p, IndexMode.w, BlockMode.p, BlockMode.u, place16_ne, place12_ne]
  · cases im <;> simp (disch := decide) [Row.proper, encode, flag, or_and_mask, place_and_zero, postW, noPUW, place_one, place_zero, IndexMode.p, IndexMode.w, BlockMode.p, BlockMode.u]
  · simp (disch := decide) [encode, flag, field_or, bitAt_or, field_place_same, field_place_disjoint, bitAt_place_same, bitAt_place_disjoint, cond_ofCode_code, shift_ofCode_code, indexMode_of, blockMode_of, join8, join16, field_lit, bitAt_lit]

theorem RoundTrip.strbReg (c im u rn rd imm5 ty rm) : RoundTrip.Statement (.strbReg c im u rn rd imm5 ty rm) := by
  intro h
  refine ⟨_, rfl, ?_, ?_, ?_⟩
  · cases im <;> simp (disch := first | decide | assumption) [Row.accepts, encode, flag, or_and_mask, place_and_zero, condF, cond_place_ne, postW, noPUW, field12Ones, field16Ones, place_one, place_zero, IndexMode.p, IndexMode.w, BlockMode.p, BlockMode.u, place16_ne, place12_ne]
  · cases im <;> simp (disch := decide) [Row.proper, encode, flag, or_and_mask, place_and_zero, postW, noPUW, place_one, place_zero, IndexMode.p, IndexMode.w, BlockMode.p, BlockMode.u]
  · simp (disch := decide) [encode, flag, field_or, bitAt_or, field_place_same, field_place_disjoint, bitAt_place_same, bitAt_place_disjoint, cond_ofCode_code, shift_ofCode_code, indexMode_of, blockMode_of, join8, join16, field_lit, bitAt_lit]

theorem RoundTrip.ldrtImm (c u rn rd imm12) : RoundTrip.Statement (.ldrtImm c u rn rd imm12) := by
  intro h
  refine ⟨_, rfl, ?_, ?_, ?_⟩
  · simp (disch := first | decide | assumption) [Row.accepts, encode, flag, or_and_mask, place_and_zero, condF, cond_place_ne, postW, noPUW, field12Ones, field16Ones, place_one, place_zero, IndexMode.p, IndexMode.w, BlockMode.p, BlockMode.u, place16_ne, place12_ne]
  · simp (disch := decide) [Row.proper, encode, flag, or_and_mask, place_and_zero, postW, noPUW, place_one, place_zero, IndexMode.p, IndexMode.w, BlockMode.p, BlockMode.u]
  · simp (disch := decide) [encode, flag, field_or, bitAt_or, field_place_same, field_place_disjoint, bitAt_place_same, bitAt_place_disjoint, cond_ofCode_code, shift_ofCode_code, indexMode_of, blockMode_of, join8, join16, field_lit, bitAt_lit]

theorem RoundTrip.ldrtReg (c u rn rd imm5 ty rm) : RoundTrip.Statement (.ldrtReg c u rn rd imm5 ty rm) := by
  intro h
  refine ⟨_, rfl, ?_, ?_, ?_⟩
  · simp (disch := first | decide | assumption) [Row.accepts, encode, flag, or_and_mask, place_and_zero, condF, cond_place_ne, postW, noPUW, field12Ones, field16Ones, place_one, place_zero, IndexMode.p, IndexMode.w, BlockMode.p, BlockMode.u, place16_ne, place12_ne]
  · simp (disch := decide) [Row.proper, encode, flag, or_and_mask, place_and_zero, postW, noPUW, place_one, place_zero, IndexMode.p, IndexMode.w, BlockMode.p, BlockMode.u]
  · simp (disch := decide) [encode, flag, field_or, bitAt_or, field_place_same, field_place_disjoint, bitAt_place_same, bitAt_place_disjoint, cond_ofCode_code, shift_ofCode_code, indexMode_of, blockMode_of, join8, join16, field_lit, bitAt_lit]

theorem RoundTrip.ldrbtImm (c u rn rd imm12) : RoundTrip.Statement (.ldrbtImm c u rn rd imm12) := by
  intro h
  refine ⟨_, rfl, ?_, ?_, ?_⟩
  · simp (disch := first | decide | assumption) [Row.accepts, encode, flag, or_and_mask, place_and_zero, condF, cond_place_ne, postW, noPUW, field12Ones, field16Ones, place_one, place_zero, IndexMode.p, IndexMode.w, BlockMode.p, BlockMode.u, place16_ne, place12_ne]
  · simp (disch := decide) [Row.proper, encode, flag, or_and_mask, place_and_zero, postW, noPUW, place_one, place_zero, IndexMode.p, IndexMode.w, BlockMode.p, BlockMode.u]
  · simp (disch := decide) [encode, flag, field_or, bitAt_or, field_place_same, field_place_disjoint, bitAt_place_same, bitAt_place_disjoint, cond_ofCode_code, shift_ofCode_code, indexMode_of, blockMode_of, join8, join16, field_lit, bitAt_lit]

theorem RoundTrip.ldrbtReg (c u rn rd imm5 ty rm) : RoundTrip.Statement (.ldrbtReg c u rn rd imm5 ty rm) := by
  intro h
  refine ⟨_, rfl, ?_, ?_, ?_⟩
  · simp (disch := first | decide | assumption) [Row.accepts, encode, flag, or_and_mask, place_and_zero, condF, cond_place_ne, postW, noPUW, field12Ones, field16Ones, place_one, place_zero, IndexMode.p, IndexMode.w, BlockMode.p, BlockMode.u, place16_ne, place12_ne]
  · simp (disch := decide) [Row.proper, encode, flag, or_and_mask, place_and_zero, postW, noPUW, place_one, place_zero, IndexMode.p, IndexMode.w, BlockMode.p, BlockMode.u]
  · simp (disch := decide) [encode, flag, field_or, bitAt_or, field_place_same, field_place_disjoint, bitAt_place_same, bitAt_place_disjoint, cond_ofCode_code, shift_ofCode_code, indexMode_of, blockMode_of, join8, join16, field_lit, bitAt_lit]

theorem RoundTrip.strtImm (c u rn rd imm12) : RoundTrip.Statement (.strtImm c u rn rd imm12) := by
  intro h
  refine ⟨_, rfl, ?_, ?_, ?_⟩
  · simp (disch := first | decide | assumption) [Row.accepts, encode, flag, or_and_mask, place_and_zero, condF, cond_place_ne, postW, noPUW, field12Ones, field16Ones, place_one, place_zero, IndexMode.p, IndexMode.w, BlockMode.p, BlockMode.u, place16_ne, place12_ne]
  · simp (disch := decide) [Row.proper, encode, flag, or_and_mask, place_and_zero, postW, noPUW, place_one, place_zero, IndexMode.p, IndexMode.w, BlockMode.p, BlockMode.u]
  · simp (disch := decide) [encode, flag, field_or, bitAt_or, field_place_same, field_place_disjoint, bitAt_place_same, bitAt_place_disjoint, cond_ofCode_code, shift_ofCode_code, indexMode_of, blockMode_of, join8, join16, field_lit, bitAt_lit]

theorem RoundTrip.strtReg (c u rn rd imm5 ty rm) : RoundTrip.Statement (.strtReg c u rn rd imm5 ty rm) := by
  intro h
  refine ⟨_, rfl, ?_, ?_, ?_⟩
  · simp (disch := first | decide | assumption) [Row.accepts, encode, flag, or_and_mask, place_and_zero, condF, cond_place_ne, postW, noPUW, field12Ones, field16Ones, place_one, place_zero, IndexMode.p, IndexMode.w, BlockMode.p, BlockMode.u, place16_ne, place12_ne]
  · simp (disch := decide) [Row.proper, encode, flag, or_and_mask, place_and_zero, postW, noPUW, place_one, place_zero, IndexMode.p, IndexMode.w, BlockMode.p, BlockMode.u]
  · simp (disch := decide) [encode, flag, field_or, bitAt_or, field_place_same, field_place_disjoint, bitAt_place_same, bitAt_place_disjoint, cond_ofCode_code, shift_ofCode_code, indexMode_of, blockMode_of, join8, join16, field_lit, bitAt_lit]

theorem RoundTrip.strbtImm (c u rn rd imm12) : RoundTrip.Statement (.strbtImm c u rn rd imm12) := by
  intro h
  refine ⟨_, rfl, ?_, ?_, ?_⟩
  · simp (disch := first | decide | assumption) [Row.accepts, encode, flag, or_and_mask, place_and_zero, condF, cond_place_ne, postW, noPUW, field12Ones, field16Ones, place_one, place_zero, IndexMode.p, IndexMode.w, BlockMode.p, BlockMode.u, place16_ne, place12_ne]
  · simp (disch := decide) [Row.proper, encode, flag, or_and_mask, place_and_zero, postW, noPUW, place_one, place_zero, IndexMode.p, IndexMode.w, BlockMode.p, BlockMode.u]
  · simp (disch := decide) [encode, flag, field_or, bitAt_or, field_place_same, field_place_disjoint, bitAt_place_same, bitAt_place_disjoint, cond_ofCode_code, shift_ofCode_code, indexMode_of, blockMode_of, join8, join16, field_lit, bitAt_lit]

theorem RoundTrip.strbtReg (c u rn rd imm5 ty rm) : RoundTrip.Statement (.strbtReg c u rn rd imm5 ty rm) := by
  intro h
  refine ⟨_, rfl, ?_, ?_, ?_⟩
  · simp (disch := first | decide | assumption) [Row.accepts, encode, flag, or_and_mask, place_and_zero, condF, cond_place_ne, postW, noPUW, field12Ones, field16Ones, place_one, place_zero, IndexMode.p, IndexMode.w, BlockMode.p, BlockMode.u, place16_ne, place12_ne]
  · simp (disch := decide) [Row.proper, encode, flag, or_and_mask, place_and_zero, postW, noPUW, place_one, place_zero, IndexMode.p, IndexMode.w, BlockMode.p, BlockMode.u]
  · simp (disch := decide) [encode, flag, field_or, bitAt_or, field_place_same, field_place_disjoint, bitAt_place_same, bitAt_place_disjoint, cond_ofCode_code, shift_ofCode_code, indexMode_of, blockMode_of, join8, join16, field_lit, bitAt_lit]

theorem RoundTrip.strhImm (c im u rn rd imm8) : RoundTrip.Statement (.strhImm c im u rn rd imm8) := by
  intro h
  refine ⟨_, rfl, ?_, ?_, ?_⟩
  · cases im <;> simp (disch := first | decide | assumption) [Row.accepts, encode, flag, or_and_mask, place_and_zero, condF, cond_place_ne, postW, noPUW, field12Ones, field16Ones, place_one, place_zero, IndexMode.p, IndexMode.w, BlockMode.p, BlockMode.u, place16_ne, place12_ne]
  · cases im <;> simp (disch := decide) [Row.proper, encode, flag, or_and_mask, place_and_zero, postW, noPUW, place_one, place_zero, IndexMode.p, IndexMode.w, BlockMode.p, BlockMode.u]
  · simp (disch := decide) [encode, flag, field_or, bitAt_or, field_place_same, field_place_disjoint, bitAt_place_same, bitAt_place_disjoint, cond_ofCode_code, shift_ofCode_code, indexMode_of, blockMode_of, join8, join16, field_lit, bitAt_lit]

theorem RoundTrip.strhReg (c im u rn rd rm) : RoundTrip.Statement (.strhReg c im u rn rd rm) := by
  intro h
  refine ⟨_, rfl, ?_, ?_, ?_⟩
  · cases im <;> simp (disch := first | decide | assumption) [Row.accepts, encode, flag, or_and_mask, place_and_zero, condF, cond_place_ne, postW, noPUW, field12Ones, field16Ones, place_one, place_zero, IndexMode.p, IndexMode.w, BlockMode.p, BlockMode.u, place16_ne, place12_ne]
  · cases im <;> simp (disch := decide) [Row.proper, encode, flag, or_and_mask, place_and_zero, postW, noPUW, place_one, place_zero, IndexMode.p, IndexMode.w, BlockMode.p, BlockMode.u]
  · simp (disch := decide) [encode, flag, field_or, bitAt_or, field_place_same, field_place_disjoint, bitAt_place_same, bitAt_place_disjoint, cond_ofCode_code, shift_ofCode_code, indexMode_of, blockMode_of, join8, join16, field_lit, bitAt_lit]

theorem RoundTrip.ldrdImm (c im u rn rd imm8) : RoundTrip.Statement (.ldrdImm c im u rn rd imm8) := by
  intro h
  refine ⟨_, rfl, ?_, ?_, ?_⟩
  · cases im <;> simp (disch := first | decide | assumption) [Row.accepts, encode, flag, or_and_mask, place_and_zero, condF, cond_place_ne, postW, noPUW, field12Ones, field16Ones, place_one, place_zero, IndexMode.p, IndexMode.w, BlockMode.p, BlockMode.u, place16_ne, place12_ne]
  · cases im <;> simp (disch := decide) [Row.proper, encode, flag, or_and_mask, place_and_zero, postW, noPUW, place_one, place_zero, IndexMode.p, IndexMode.w, BlockMode.p, BlockMode.u]
  · simp (disch := decide) [encode, flag, field_or, bitAt_or, field_place_same, field_place_disjoint, bitAt_place_same, bitAt_place_disjoint, cond_ofCode_code, shift_ofCode_code, indexMode_of, blockMode_of, join8, join16, field_lit, bitAt_lit]

theorem RoundTrip.ldrdReg (c im u rn rd rm) : RoundTrip.Statement (.ldrdReg c im u rn rd rm) := by
  intro h
  refine ⟨_, rfl, ?_, ?_, ?_⟩
  · cases im <;> simp (disch := first | decide | assumption) [Row.accepts, encode, flag, or_and_mask, place_and_zero, condF, cond_place_ne, postW, noPUW, field12Ones, field16Ones, place_one, place_zero, IndexMode.p, IndexMode.w, BlockMode.p, BlockMode.u, place16_ne, place12_ne]
  · cases im <;> simp (disch := decide) [Row.proper, encode, flag, or_and_mask, place_and_zero, postW, noPUW, place_one, place_zero, IndexMode.p, IndexMode.w, BlockMode.p, BlockMode.u]
  · simp (disch := decide) [encode, flag, field_or, bitAt_or, field_place_same, field_place_disjoint, bitAt_place_same, bitAt_place_disjoint, cond_ofCode_code, shift_ofCode_code, indexMode_of, blockMode_of, join8, join16, field_lit, bitAt_lit]

theorem RoundTrip.strdImm (c im u rn rd imm8) : RoundTrip.Statement (.strdImm c im u rn rd imm8) := by
  intro h
  refine ⟨_, rfl, ?_, ?_, ?_⟩
  · cases im <;> simp (disch := first | decide | assumption) [Row.accepts, encode, flag, or_and_mask, place_and_zero, condF, cond_place_ne, postW, noPUW, field12Ones, field16Ones, place_one, place_zero, IndexMode.p, IndexMode.w, BlockMode.p, BlockMode.u, place16_ne, place12_ne]
  · cases im <;> simp (disch := decide) [Row.proper, encode, flag, or_and_mask, place_and_zero, postW, noPUW, place_one, place_zero, IndexMode.p, IndexMode.w, BlockMode.p, BlockMode.u]
  · simp (disch := decide) [encode, flag, field_or, bitAt_or, field_place_same, field_place_disjoint, bitAt_place_same, bitAt_place_disjoint, cond_ofCode_code, shift_ofCode_code, indexMode_of, blockMode_of, join8, join16, field_lit, bitAt_lit]

theorem RoundTrip.strdReg (c im u rn rd rm) : RoundTrip.Statement (.strdReg c im u rn rd rm) := by
  intro h
  refine ⟨_, rfl, ?_, ?_, ?_⟩
  · cases im <;> simp (disch := first | decide | assumption) [Row.accepts, encode, flag, or_and_mask, place_and_zero, condF, cond_place_ne, postW, noPUW, field12Ones, field16Ones, place_one, place_zero, IndexMode.p, IndexMode.w, BlockMode.p, BlockMode.u, place16_ne, place12_ne]
  · cases im <;> simp (disch := decide) [Row.proper, encode, flag, or_and_mask, place_and_zero, postW, noPUW, place_one, place_zero, IndexMode.p, IndexMode.w, BlockMode.p, BlockMode.u]
  · simp (disch := decide) [encode, flag, field_or, bitAt_or, field_place_same, field_place_disjoint, bitAt_place_same, bitAt_place_disjoint, cond_ofCode_code, shift_ofCode_code, indexMode_of, blockMode_of, join8, join16, field_lit, bitAt_lit]

theorem RoundTrip.ldrhImm (c im u rn rd imm8) : RoundTrip.Statement (.ldrhImm c im u rn rd imm8) := by
  intro h
  refine ⟨_, rfl, ?_, ?_, ?_⟩
  · cases im <;> simp (disch := first | decide | assumption) [Row.accepts, encode, flag, or_and_mask, place_and_zero, condF, cond_place_ne, postW, noPUW, field12Ones, field16Ones, place_one, place_zero, IndexMode.p, IndexMode.w, BlockMode.p, BlockMode.u, place16_ne, place12_ne]
  · cases im <;> simp (disch := decide) [Row.proper, encode, flag, or_and_mask, place_and_zero, postW, noPUW, place_one, place_zero, IndexMode.p, IndexMode.w, BlockMode.p, BlockMode.u]
  · simp (disch := decide) [encode, flag, field_or, bitAt_or, field_place_same, field_place_disjoint, bitAt_place_same, bitAt_place_disjoint, cond_ofCode_code, shift_ofCode_code, indexMode_of, blockMode_of, join8, join16, field_lit, bitAt_lit]

theorem RoundTrip.ldrhReg (c im u rn rd rm) : RoundTrip.Statement (.ldrhReg c im u rn rd rm) := by
  intro h
  refine ⟨_, rfl, ?_, ?_, ?_⟩
  · cases im <;> simp (disch := first | decide | assumption) [Row.accepts, encode, flag, or_and_mask, place_and_zero, condF, cond_place_ne, postW, noPUW, field12Ones, field16Ones, place_one, place_zero, IndexMode.p, IndexMode.w, BlockMode.p, BlockMode.u, place16_ne, place12_ne]
  · cases im <;> simp (disch := decide) [Row.proper, encode, flag, or_and_mask, place_and_zero, postW, noPUW, place_one, place_zero, IndexMode.p, IndexMode.w, BlockMode.p, BlockMode.u]
  · simp (disch := decide) [encode, flag, field_or, bitAt_or, field_place_same, field_place_disjoint, bitAt_place_same, bitAt_place_disjoint, cond_ofCode_code, shift_ofCode_code, indexMode_of, blockMode_of, join8, join16, field_lit, bitAt_lit]

theorem RoundTrip.ldrsbImm (c im u rn rd imm8) : RoundTrip.Statement (.ldrsbImm c im u rn rd imm8) := by
  intro h
  refine ⟨_, rfl, ?_, ?_, ?_⟩
  · cases im <;> simp (disch := first | decide | assumption) [Row.accepts, encode, flag, or_and_mask, place_and_zero, condF, cond_place_ne, postW, noPUW, field12Ones, field16Ones, place_one, place_zero, IndexMode.p, IndexMode.w, BlockMode.p, BlockMode.u, place16_ne, place12_ne]
  · cases im <;> simp (disch := decide) [Row.proper, encode, flag, or_and_mask, place_and_zero, postW, noPUW, place_one, place_zero, IndexMode.p, IndexMode.w, BlockMode.p, BlockMode.u]
  · simp (disch := decide) [encode, flag, field_or, bitAt_or, field_place_same, field_place_disjoint, bitAt_place_same, bitAt_place_disjoint, cond_ofCode_code, shift_ofCode_code, indexMode_of, blockMode_of, join8, join16, field_lit, bitAt_lit]

theorem RoundTrip.ldrsbReg (c im u rn rd rm) : RoundTrip.Statement (.ldrsbReg c im u rn rd rm) := by
  intro h
  refine ⟨_, rfl, ?_, ?_, ?_⟩
  · cases im <;> simp (disch := first | decide | assumption) [Row.accepts, encode, flag, or_and_mask, place_and_zero, condF, cond_place_ne, postW, noPUW, field12Ones, field16Ones, place_one, place_zero, IndexMode.p, IndexMode.w, BlockMode.p, BlockMode.u, place16_ne, place12_ne]
  · cases im <;> simp (disch := decide) [Row.proper, encode, flag, or_and_mask, place_and_zero, postW, noPUW, place_one, place_zero, IndexMode.p, IndexMode.w, BlockMode.p, BlockMode.u]
  · simp (disch := decide) [encode, flag, field_or, bitAt_or, field_place_same, field_place_disjoint, bitAt_place_same, bitAt_place_disjoint, cond_ofCode_code, shift_ofCode_code, indexMode_of, blockMode_of, join8, join16, field_lit, bitAt_lit]

theorem RoundTrip.ldrshImm (c im u rn rd imm8) : RoundTrip.Statement (.ldrshImm c im u rn rd imm8) := by
  intro h
  refine ⟨_, rfl, ?_, ?_, ?_⟩
  · cases im <;> simp (disch := first | decide | assumption) [Row.accepts, encode, flag, or_and_mask, place_and_zero, condF, cond_place_ne, postW, noPUW, field12Ones, field16Ones, place_one, place_zero, IndexMode.p, IndexMode.w, BlockMode.p, BlockMode.u, place16_ne, place12_ne]
  · cases im <;> simp (disch := decide) [Row.proper, encode, flag, or_and_mask, place_and_zero, postW, noPUW, place_one, place_zero, IndexMode.p, IndexMode.w, BlockMode.p, BlockMode.u]
  · simp (disch := decide) [encode, flag, field_or, bitAt_or, field_place_same, field_place_disjoint, bitAt_place_same, bitAt_place_disjoint, cond_ofCode_code, shift_ofCode_code, indexMode_of, blockMode_of, join8, join16, field_lit, bitAt_lit]

theorem RoundTrip.ldrshReg (c im u rn rd rm) : RoundTrip.Statement (.ldrshReg c im u rn rd rm) := by
  intro h
  refine ⟨_, rfl, ?_, ?_, ?_⟩
  · cases im <;> simp (disch := first | decide | assumption) [Row.accepts, encode, flag, or_and_mask, place_and_zero, condF, cond_place_ne, postW, noPUW, field12Ones, field16Ones, place_one, place_zero, IndexMode.p, IndexMode.w, BlockMode.p, BlockMode.u, place16_ne, place12_ne]
  · cases im <;> simp (disch := decide) [Row.proper, encode, flag, or_and_mask, place_and_zero, postW, noPUW, place_one, place_zero, IndexMode.p, IndexMode.w, BlockMode.p, BlockMode.u]
  · simp (disch := decide) [encode, flag, field_or, bitAt_or, field_place_same, field_place_disjoint, bitAt_place_same, bitAt_place_disjoint, cond_ofCode_code, shift_ofCode_code, indexMode_of, blockMode_of, join8, join16, field_lit, bitAt_lit]

theorem RoundTrip.ldrex (c rn rd) : RoundTrip.Statement (.ldrex c rn rd) := by
  intro h
  refine ⟨_, rfl, ?_, ?_, ?_⟩
  · simp (disch := first | decide | assumption) [Row.accepts, encode, flag, or_and_mask, place_and_zero, condF, cond_place_ne, postW, noPUW, field12Ones, field16Ones, place_one, place_zero, IndexMode.p, IndexMode.w, BlockMode.p, BlockMode.u, place16_ne, place12_ne]
  · simp (disch := decide) [Row.proper, encode, flag, or_and_mask, place_and_zero, postW, noPUW, place_one, place_zero, IndexMode.p, IndexMode.w, BlockMode.p, BlockMode.u]
  · simp (disch := decide) [encode, flag, field_or, bitAt_or, field_place_same, field_place_disjoint, bitAt_place_same, bitAt_place_disjoint, cond_ofCode_code, shift_ofCode_code, indexMode_of, blockMode_of, join8, join16, field_lit, bitAt_lit]

theorem RoundTrip.strex (c rn rd rm) : RoundTrip.Statement (.strex c rn rd rm) := by
  intro h
  refine ⟨_, rfl, ?_, ?_, ?_⟩
  · simp (disch := first | decide | assumption) [Row.accepts, encode, flag, or_and_mask, place_and_zero, condF, cond_place_ne, postW, noPUW, field12Ones, field16Ones, place_one, place_zero, IndexMode.p, IndexMode.w, BlockMode.p, BlockMode.u, place16_ne, place12_ne]
  · simp (disch := decide) [Row.proper, encode, flag, or_and_mask, place_and_zero, postW, noPUW, place_one, place_zero, IndexMode.p, IndexMode.w, BlockMode.p, BlockMode.u]
  · simp (disch := decide) [encode, flag, field_or, bitAt_or, field_place_same, field_place_disjoint, bitAt_place_same, bitAt_place_disjoint, cond_ofCode_code, shift_ofCode_code, indexMode_of, blockMode_of, join8, join16, field_lit, bitAt_lit]

theorem RoundTrip.pldImm (u rn imm12) : RoundTrip.Statement (.pldImm u rn imm12) := by
  intro h
  refine ⟨_, rfl, ?_, ?_, ?_⟩
  · simp (disch := first | decide | assumption) [Row.accepts, encode, flag, or_and_mask, place_and_zero, condF, cond_place_ne, postW, noPUW, field12Ones, field16Ones, place_one, place_zero, IndexMode.p, IndexMode.w, BlockMode.p, BlockMode.u, place16_ne, place12_ne]
  · simp (disch := decide) [Row.proper, encode, flag, or_and_mask, place_and_zero, postW, noPUW, place_one, place_zero, IndexMode.p, IndexMode.w, BlockMode.p, BlockMode.u]
  · simp (disch := decide) [encode, flag, field_or, bitAt_or, field_place_same, field_place_disjoint, bitAt_place_same, bitAt_place_disjoint, cond_ofCode_code, shift_ofCode_code, indexMode_of, blockMode_of, join8, join16, field_lit, bitAt_lit]

theorem RoundTrip.pldReg (u rn imm5 ty rm) : RoundTrip.Statement (.pldReg u rn imm5 ty rm) := by
  intro h
  refine ⟨_, rfl, ?_, ?_, ?_⟩
  · simp (disch := first | decide | assumption) [Row.accepts, encode, flag, or_and_mask, place_and_zero, condF, cond_place_ne, postW, noPUW, field12Ones, field16Ones, place_one, place_zero, IndexMode.p, IndexMode.w, BlockMode.p, BlockMode.u, place16_ne, place12_ne]
  · simp (disch := decide) [Row.proper, encode, flag, or_and_mask, place_and_zero, postW, noPUW, place_one, place_zero, IndexMode.p, IndexMode.w, BlockMode.p, BlockMode.u]
  · simp (disch := decide) [encode, flag, field_or, bitAt_or, field_place_same, field_place_disjoint, bitAt_place_same, bitAt_place_disjoint, cond_ofCode_code, shift_ofCode_code, indexMode_of, blockMode_of, join8, join16, field_lit, bitAt_lit]

theorem RoundTrip.ldm1 (c am w rn list) : RoundTrip.Statement (.ldm1 c am w rn list) := by
  intro h
  refine ⟨_, rfl, ?_, ?_, ?_⟩
  · simp (disch := first | decide | assumption) [Row.accepts, encode, flag, or_and_mask, place_and_zero, condF, cond_place_ne, postW, noPUW, field12Ones, field16Ones, place_one, place_zero, IndexMode.p, IndexMode.w, BlockMode.p, BlockMode.u, place16_ne, place12_ne]
  · simp (disch := decide) [Row.proper, encode, flag, or_and_mask, place_and_zero, postW, noPUW, place_one, place_zero, IndexMode.p, IndexMode.w, BlockMode.p, BlockMode.u]
  · simp (disch := decide) [encode, flag, field_or, bitAt_or, field_place_same, field_place_disjoint, bitAt_place_same, bitAt_place_disjoint, cond_ofCode_code, shift_ofCode_code, indexMode_of, blockMode_of, join8, join16, field_lit, bitAt_lit]

theorem RoundTrip.ldm2 (c am rn list) : RoundTrip.Statement (.ldm2 c am rn list) := by
  intro h
  refine ⟨_, rfl, ?_, ?_, ?_⟩
  · simp (disch := first | decide | assumption) [Row.accepts, encode, flag, or_and_mask, place_and_zero, condF, cond_place_ne, postW, noPUW, field12Ones, field16Ones, place_one, place_zero, IndexMode.p, IndexMode.w, BlockMode.p, BlockMode.u, place16_ne, place12_ne]
  · simp (disch := decide) [Row.proper, encode, flag, or_and_mask, place_and_zero, postW, noPUW, place_one, place_zero, IndexMode.p, IndexMode.w, BlockMode.p, BlockMode.u]
  · simp (disch := decide) [encode, flag, field_or, bitAt_or, field_place_same, field_place_disjoint, bitAt_place_same, bitAt_place_disjoint, cond_ofCode_code, shift_ofCode_code, indexMode_of, blockMode_of, join8, join16, field_lit, bitAt_lit]

theorem RoundTrip.ldm3 (c am w rn list) : RoundTrip.Statement (.ldm3 c am w rn list) := by
  intro h
  refine ⟨_, rfl, ?_, ?_, ?_⟩
  · simp (disch := first | decide | assumption) [Row.accepts, encode, flag, or_and_mask, place_and_zero, condF, cond_place_ne, postW, noPUW, field12Ones, field16Ones, place_one, place_zero, IndexMode.p, IndexMode.w, BlockMode.p, BlockMode.u, place16_ne, place12_ne]
  · simp (disch := decide) [Row.proper, encode, flag, or_and_mask, place_and_zero, postW, noPUW, place_one, place_zero, IndexMode.p, IndexMode.w, BlockMode.p, BlockMode.u]
  · simp (disch := decide) [encode, flag, field_or, bitAt_or, field_place_same, field_place_disjoint, bitAt_place_same, bitAt_place_disjoint, cond_ofCode_code, shift_ofCode_code, indexMode_of, blockMode_of, join8, join16, field_lit, bitAt_lit]

theorem RoundTrip.stm1 (c am w rn list) : RoundTrip.Statement (.stm1 c am w rn list) := by
  intro h
  refine ⟨_, rfl, ?_, ?_, ?_⟩
  · simp (disch := first | decide | assumption) [Row.accepts, encode, flag, or_and_mask, place_and_zero, condF, cond_place_ne, postW, noPUW, field12Ones, field16Ones, place_one, place_zero, IndexMode.p, IndexMode.w, BlockMode.p, BlockMode.u, place16_ne, place12_ne]
  · simp (disch := decide) [Row.proper, encode, flag, or_and_mask, place_and_zero, postW, noPUW, place_one, place_zero, IndexMode.p, IndexMode.w, BlockMode.p, BlockMode.u]
  · simp (disch := decide) [encode, flag, field_or, bitAt_or, field_place_same, field_place_disjoint, bitAt_place_same, bitAt_place_disjoint, cond_ofCode_code, shift_ofCode_code, indexMode_of, blockMode_of, join8, join16, field_lit, bitAt_lit]

theorem RoundTrip.stm2 (c am rn list) : RoundTrip.Statement (.stm2 c am rn list) := by
  intro h
  refine ⟨_, rfl, ?_, ?_, ?_⟩
  · simp (disch := first | decide | assumption) [Row.accepts, encode, flag, or_and_mask, place_and_zero, condF, cond_place_ne, postW, noPUW, field12Ones, field16Ones, place_one, place_zero, IndexMode.p, IndexMode.w, BlockMode.p, BlockMode.u, place16_ne, place12_ne]
  · simp (disch := decide) [Row.proper, encode, flag, or_and_mask, place_and_zero, postW, noPUW, place_one, place_zero, IndexMode.p, IndexMode.w, BlockMode.p, BlockMode.u]
  · simp (disch := decide) [encode, flag, field_or, bitAt_or, field_place_same, field_place_disjoint, bitAt_place_same, bitAt_place_disjoint, cond_ofCode_code, shift_ofCode_code, indexMode_of, blockMode_of, join8, join16, field_lit, bitAt_lit]

theorem RoundTrip.rfe (am w rn) : RoundTrip.Statement (.rfe am w rn) := by
  intro h
  refine ⟨_, rfl, ?_, ?_, ?_⟩
  · simp (disch := first | decide | assumption) [Row.accepts, encode, flag, or_and_mask, place_and_zero, condF, cond_place_ne, postW, noPUW, field12Ones, field16Ones, place_one, place_zero, IndexMode.p, IndexMode.w, BlockMode.p, BlockMode.u, place16_ne, place12_ne]
  · simp (disch := decide) [Row.proper, encode, flag, or_and_mask, place_and_zero, postW, noPUW, place_one, place_zero, IndexMode.p, IndexMode.w, BlockMode.p, BlockMode.u]
  · simp (disch := decide) [encode, flag, field_or, bitAt_or, field_place_same, field_place_disjoint, bitAt_place_same, bitAt_place_disjoint, cond_ofCode_code, shift_ofCode_code, indexMode_of, blockMode_of, join8, join16, field_lit, bitAt_lit]

theorem RoundTrip.srs (am w mode) : RoundTrip.Statement (.srs am w mode) := by
  intro h
  refine ⟨_, rfl, ?_, ?_, ?_⟩
  · simp (disch := first | decide | assumption) [Row.accepts, encode, flag, or_and_mask, place_and_zero, condF, cond_place_ne, postW, noPUW, field12Ones, field16Ones, place_one, place_zero, IndexMode.p, IndexMode.w, BlockMode.p, BlockMode.u, place16_ne, place12_ne]
  · simp (disch := decide) [Row.proper, encode, flag, or_and_mask, place_and_zero, postW, noPUW, place_one, place_zero, IndexMode.p, IndexMode.w, BlockMode.p, BlockMode.u]
  · simp (disch := decide) [encode, flag, field_or, bitAt_or, field_place_same, field_place_disjoint, bitAt_place_same, bitAt_place_disjoint, cond_ofCode_code, shift_ofCode_code, indexMode_of, blockMode_of, join8, join16, field_lit, bitAt_lit]

theorem RoundTrip.swp (c rn rd rm) : RoundTrip.Statement (.swp c rn rd rm) := by
  intro h
  refine ⟨_, rfl, ?_, ?_, ?_⟩
  · simp (disch := first | decide | assumption) [Row.accepts, encode, flag, or_and_mask, place_and_zero, condF, cond_place_ne, postW, noPUW, field12Ones, field16Ones, place_one, place_zero, IndexMode.p, IndexMode.w, BlockMode.p, BlockMode.u, place16_ne, place12_ne]
  · simp (disch := decide) [Row.proper, encode, flag, or_and_mask, place_and_zero, postW, noPUW, place_one, place_zero, IndexMode.p, IndexMode.w, BlockMode.p, BlockMode.u]
  · simp (disch := decide) [encode, flag, field_or, bitAt_or, field_place_same, field_place_disjoint, bitAt_place_same, bitAt_place_disjoint, cond_ofCode_code, shift_ofCode_code, indexMode_of, blockMode_of, join8, join16, field_lit, bitAt_lit]

theorem RoundTrip.swpb (c rn rd rm) : RoundTrip.Statement (.swpb c rn rd rm) := by
  intro h
  refine ⟨_, rfl, ?_, ?_, ?_⟩
  · simp (disch := first | decide | assumption) [Row.accepts, encode, flag, or_and_mask, place_and_zero, condF, cond_place_ne, postW, noPUW, field12Ones, field16Ones, place_one, place_zero, IndexMode.p, IndexMode.w, BlockMode.p, BlockMode.u, place16_ne, place12_ne]
  · simp (disch := decide) [Row.proper, encode, flag, or_and_mask, place_and_zero, postW, noPUW, place_one, place_zero, IndexMode.p, IndexMode.w, BlockMode.p, BlockMode.u]
  · simp (disch := decide) [encode, flag, field_or, bitAt_or, field_place_same, field_place_disjoint, bitAt_place_same, bitAt_place_disjoint, cond_ofCode_code, shift_ofCode_code, indexMode_of, blockMode_of, join8, join16, field_lit, bitAt_lit]

theorem RoundTrip.swi (c imm24) : RoundTrip.Statement (.swi c imm24) := by
  intro h
  refine ⟨_, rfl, ?_, ?_, ?_⟩
  · simp (disch := first | decide | assumption) [Row.accepts, encode, flag, or_and_mask, place_and_zero, condF, cond_place_ne, postW, noPUW, field12Ones, field16Ones, place_one, place_zero, IndexMode.p, IndexMode.w, BlockMode.p, BlockMode.u, place16_ne, place12_ne]
  · simp (disch := decide) [Row.proper, encode, flag, or_and_mask, place_and_zero, postW, noPUW, place_one, place_zero, IndexMode.p, IndexMode.w, BlockMode.p, BlockMode.u]
  · simp (disch := decide) [encode, flag, field_or, bitAt_or, field_place_same, field_place_disjoint, bitAt_place_same, bitAt_place_disjoint, cond_ofCode_code, shift_ofCode_code, indexMode_of, blockMode_of, join8, join16, field_lit, bitAt_lit]

theorem RoundTrip.bkpt (c imm16) : RoundTrip.Statement (.bkpt c imm16) := by
  intro h
  refine ⟨_, rfl, ?_, ?_, ?_⟩
  · simp (disch := first | decide | assumption) [Row.accepts, encode, flag, or_and_mask, place_and_zero, condF, cond_place_ne, postW, noPUW, field12Ones, field16Ones, place_one, place_zero, IndexMode.p, IndexMode.w, BlockMode.p, BlockMode.u, place16_ne, place12_ne]
  · simp (disch := decide) [Row.proper, encode, flag, or_and_mask, place_and_zero, postW, noPUW, place_one, place_zero, IndexMode.p, IndexMode.w, BlockMode.p, BlockMode.u]
  · simp (disch := decide) [encode, flag, field_or, bitAt_or, field_place_same, field_place_disjoint, bitAt_place_same, bitAt_place_disjoint, cond_ofCode_code, shift_ofCode_code, indexMode_of, blockMode_of, join8, join16, field_lit, bitAt_lit]

theorem RoundTrip.undef (c imm16) : RoundTrip.Statement (.undef c imm16) := by
  intro h
  refine ⟨_, rfl, ?_, ?_, ?_⟩
  · simp (disch := first | decide | assumption) [Row.accepts, encode, flag, or_and_mask, place_and_zero, condF, cond_place_ne, postW, noPUW, field12Ones, field16Ones, place_one, place_zero, IndexMode.p, IndexMode.w, BlockMode.p, BlockMode.u, place16_ne, place12_ne]
  · simp (disch := decide) [Row.proper, encode, flag, or_and_mask, place_and_zero, postW, noPUW, place_one, place_zero, IndexMode.p, IndexMode.w, BlockMode.p, BlockMode.u]
  · simp (disch := decide) [encode, flag, field_or, bitAt_or, field_place_same, field_place_disjoint, bitAt_place_same, bitAt_place_disjoint, cond_ofCode_code, shift_ofCode_code, indexMode_of, blockMode_of, join8, join16, field_lit, bitAt_lit]

theorem RoundTrip.cdp (c opc1 crn crd cp opc2 crm) : RoundTrip.Statement (.cdp c opc1 crn crd cp opc2 crm) := by
  intro h
  refine ⟨_, rfl, ?_, ?_, ?_⟩
  · simp (disch := first | decide | assumption) [Row.accepts, encode, flag, or_and_mask, place_and_zero, condF, cond_place_ne, postW, noPUW, field12Ones, field16Ones, place_one, place_zero, IndexMode.p, IndexMode.w, BlockMode.p, BlockMode.u, place16_ne, place12_ne]
  · simp (disch := decide) [Row.proper, encode, flag, or_and_mask, place_and_zero, postW, noPUW, place_one, place_zero, IndexMode.p, IndexMode.w, BlockMode.p, BlockMode.u]
  · simp (disch := decide) [encode, flag, field_or, bitAt_or, field_place_same, field_place_disjoint, bitAt_place_same, bitAt_place_disjoint, cond_ofCode_code, shift_ofCode_code, indexMode_of, blockMode_of, join8, join16, field_lit, bitAt_lit]

theorem RoundTrip.ldc (c p u n w rn crd cp imm8) : RoundTrip.Statement (.ldc c p u n w rn crd cp imm8) := by
  intro h
  replace h : ldcForm p u w = true := h
  refine ⟨_, rfl, ?_, ?_, ?_⟩
  · simp (disch := decide) [Row.accepts, encode, flag, or_and_mask, place_and_zero, condF, cond_place_ne, postW, noPUW, field12Ones, field16Ones, place_one, place_zero, IndexMode.p, IndexMode.w, BlockMode.p, BlockMode.u, place16_ne, place12_ne]
    revert p u w; decide
  · simp (disch := decide) [Row.proper, encode, flag, or_and_mask, place_and_zero, postW, noPUW, place_one, place_zero, IndexMode.p, IndexMode.w, BlockMode.p, BlockMode.u]
  · simp (disch := decide) [encode, flag, field_or, bitAt_or, field_place_same, field_place_disjoint, bitAt_place_same, bitAt_place_disjoint, cond_ofCode_code, shift_ofCode_code, indexMode_of, blockMode_of, join8, join16, field_lit, bitAt_lit]

theorem RoundTrip.stc (c p u n w rn crd cp imm8) : RoundTrip.Statement (.stc c p u n w rn crd cp imm8) := by
  intro h
  replace h : ldcForm p u w = true := h
  refine ⟨_, rfl, ?_, ?_, ?_⟩
  · simp (disch := decide) [Row.accepts, encode, flag, or_and_mask, place_and_zero, condF, cond_place_ne, postW, noPUW, field12Ones, field16Ones, place_one, place_zero, IndexMode.p, IndexMode.w, BlockMode.p, BlockMode.u, place16_ne, place12_ne]
    revert p u w; decide
  · simp (disch := decide) [Row.proper, encode, flag, or_and_mask, place_and_zero, postW, noPUW, place_one, place_zero, IndexMode.p, IndexMode.w, BlockMode.p, BlockMode.u]
  · simp (disch := decide) [encode, flag, field_or, bitAt_or, field_place_same, field_place_disjoint, bitAt_place_same, bitAt_place_disjoint, cond_ofCode_code, shift_ofCode_code, indexMode_of, blockMode_of, join8, join16, field_lit, bitAt_lit]

theorem RoundTrip.mcr (c opc1 crn rd cp opc2 crm) : RoundTrip.Statement (.mcr c opc1 crn rd cp opc2 crm) := by
  intro h
  refine ⟨_, rfl, ?_, ?_, ?_⟩
  · simp (disch := first | decide | assumption) [Row.accepts, encode, flag, or_and_mask, place_and_zero, condF, cond_place_ne, postW, noPUW, field12Ones, field16Ones, place_one, place_zero, IndexMode.p, IndexMode.w, BlockMode.p, BlockMode.u, place16_ne, place12_ne]
  · simp (disch := decide) [Row.proper, encode, flag, or_and_mask, place_and_zero, postW, noPUW, place_one, place_zero, IndexMode.p, IndexMode.w, BlockMode.p, BlockMode.u]
  · simp (disch := decide) [encode, flag, field_or, bitAt_or, field_place_same, field_place_disjoint, bitAt_place_same, bitAt_place_disjoint, cond_ofCode_code, shift_ofCode_code, indexMode_of, blockMode_of, join8, join16, field_lit, bitAt_lit]

theorem RoundTrip.mrc (c opc1 crn rd cp opc2 crm) : RoundTrip.Statement (.mrc c opc1 crn rd cp opc2 crm) := by
  intro h
  refine ⟨_, rfl, ?_, ?_, ?_⟩
  · simp (disch := first | decide | assumption) [Row.accepts, encode, flag, or_and_mask, place_and_zero, condF, cond_place_ne, postW, noPUW, field12Ones, field16Ones, place_one, place_zero, IndexMode.p, IndexMode.w, BlockMode.p, BlockMode.u, place16_ne, place12_ne]
  · simp (disch := decide) [Row.proper, encode, flag, or_and_mask, place_and_zero, postW, noPUW, place_one, place_zero, IndexMode.p, IndexMode.w, BlockMode.p, BlockMode.u]
  · simp (disch := decide) [encode, flag, field_or, bitAt_or, field_place_same, field_place_disjoint, bitAt_place_same, bitAt_place_disjoint, cond_ofCode_code, shift_ofCode_code, indexMode_of, blockMode_of, join8, join16, field_lit, bitAt_lit]

theorem RoundTrip.mcrr (c rn rd cp opc crm) : RoundTrip.Statement (.mcrr c rn rd cp opc crm) := by
  intro h
  refine ⟨_, rfl, ?_, ?_, ?_⟩
  · simp (disch := first | decide | assumption) [Row.accepts, encode, flag, or_and_mask, place_and_zero, condF, cond_place_ne, postW, noPUW, field12Ones, field16Ones, place_one, place_zero, IndexMode.p, IndexMode.w, BlockMode.p, BlockMode.u, place16_ne, place12_ne]
  · simp (disch := decide) [Row.proper, encode, flag, or_and_mask, place_and_zero, postW, noPUW, place_one, place_zero, IndexMode.p, IndexMode.w, BlockMode.p, BlockMode.u]
  · simp (disch := decide) [encode, flag, field_or, bitAt_or, field_place_same, field_place_disjoint, bitAt_place_same, bitAt_place_disjoint, cond_ofCode_code, shift_ofCode_code, indexMode_of, blockMode_of, join8, join16, field_lit, bitAt_lit]

theorem RoundTrip.mrrc (c rn rd cp opc crm) : RoundTrip.Statement (.mrrc c rn rd cp opc crm) := by
  intro h
  refine ⟨_, rfl, ?_, ?_, ?_⟩
  · simp (disch := first | decide | assumption) [Row.accepts, encode, flag, or_and_mask, place_and_zero, condF, cond_place_ne, postW, noPUW, field12Ones, field16Ones, place_one, place_zero, IndexMode.p, IndexMode.w, BlockMode.p, BlockMode.u, place16_ne, place12_ne]
  · simp (disch := decide) [Row.proper, encode, flag, or_and_mask, place_and_zero, postW, noPUW, place_one, place_zero, IndexMode.p, IndexMode.w, BlockMode.p, BlockMode.u]
  · simp (disch := decide) [encode, flag, field_or, bitAt_or, field_place_same, field_place_disjoint, bitAt_place_same, bitAt_place_disjoint, cond_ofCode_code, shift_ofCode_code, indexMode_of, blockMode_of, join8, join16, field_lit, bitAt_lit]

theorem RoundTrip.cdp2 (opc1 crn crd cp opc2 crm) : RoundTrip.Statement (.cdp2 opc1 crn crd cp opc2 crm) := by
  intro h
  refine ⟨_, rfl, ?_, ?_, ?_⟩
  · simp (disch := first | decide | assumption) [Row.accepts, encode, flag, or_and_mask, place_and_zero, condF, cond_place_ne, postW, noPUW, field12Ones, field16Ones, place_one, place_zero, IndexMode.p, IndexMode.w, BlockMode.p, BlockMode.u, place16_ne, place12_ne]
  · simp (disch := decide) [Row.proper, encode, flag, or_and_mask, place_and_zero, postW, noPUW, place_one, place_zero, IndexMode.p, IndexMode.w, BlockMode.p, BlockMode.u]
  · simp (disch := decide) [encode, flag, field_or, bitAt_or, field_place_same, field_place_disjoint, bitAt_place_same, bitAt_place_disjoint, cond_ofCode_code, shift_ofCode_code, indexMode_of, blockMode_of, join8, join16, field_lit, bitAt_lit]

theorem RoundTrip.ldc2 (p u n w rn crd cp imm8) : RoundTrip.Statement (.ldc2 p u n w rn crd cp imm8) := by
  intro h
  replace h : ldcForm p u w = true := h
  refine ⟨_, rfl, ?_, ?_, ?_⟩
  · simp (disch := decide) [Row.accepts, encode, flag, or_and_mask, place_and_zero, condF, cond_place_ne, postW, noPUW, field12Ones, field16Ones, place_one, place_zero, IndexMode.p, IndexMode.w, BlockMode.p, BlockMode.u, place16_ne, place12_ne]
    revert p u w; decide
  · simp (disch := decide) [Row.proper, encode, flag, or_and_mask, place_and_zero, postW, noPUW, place_one, place_zero, IndexMode.p, IndexMode.w, BlockMode.p, BlockMode.u]
  · simp (disch := decide) [encode, flag, field_or, bitAt_or, field_place_same, field_place_disjoint, bitAt_place_same, bitAt_place_disjoint, cond_ofCode_code, shift_ofCode_code, indexMode_of, blockMode_of, join8, join16, field_lit, bitAt_lit]

theorem RoundTrip.stc2 (p u n w rn crd cp imm8) : RoundTrip.Statement (.stc2 p u n w rn crd cp imm8) := by
  intro h
  replace h : ldcForm p u w = true := h
  refine ⟨_, rfl, ?_, ?_, ?_⟩
  · simp (disch := decide) [Row.accepts, encode, flag, or_and_mask, place_and_zero, condF, cond_place_ne, postW, noPUW, field12Ones, field16Ones, place_one, place_zero, IndexMode.p, IndexMode.w, BlockMode.p, BlockMode.u, place16_ne, place12_ne]
    revert p u w; decide
  · simp (disch := decide) [Row.proper, encode, flag, or_and_mask, place_and_zero, postW, noPUW, place_one, place_zero, IndexMode.p, IndexMode.w, BlockMode.p, BlockMode.u]
  · simp (disch := decide) [encode, flag, field_or, bitAt_or, field_place_same, field_place_disjoint, bitAt_place_same, bitAt_place_disjoint, cond_ofCode_code, shift_ofCode_code, indexMode_of, blockMode_of, join8, join16, field_lit, bitAt_lit]

theorem RoundTrip.mcr2 (opc1 crn rd cp opc2 crm) : RoundTrip.Statement (.mcr2 opc1 crn rd cp opc2 crm) := by
  intro h
  refine ⟨_, rfl, ?_, ?_, ?_⟩
  · simp (disch := first | decide | assumption) [Row.accepts, encode, flag, or_and_mask, place_and_zero, condF, cond_place_ne, postW, noPUW, field12Ones, field16Ones, place_one, place_zero, IndexMode.p, IndexMode.w, BlockMode.p, BlockMode.u, place16_ne, place12_ne]
  · simp (disch := decide) [Row.proper, encode, flag, or_and_mask, place_and_zero, postW, noPUW, place_one, place_zero, IndexMode.p, IndexMode.w, BlockMode.p, BlockMode.u]
  · simp (disch := decide) [encode, flag, field_or, bitAt_or, field_place_same, field_place_disjoint, bitAt_place_same, bitAt_place_disjoint, cond_ofCode_code, shift_ofCode_code, indexMode_of, blockMode_of, join8, join16, field_lit, bitAt_lit]

theorem RoundTrip.mrc2 (opc1 crn rd cp opc2 crm) : RoundTrip.Statement (.mrc2 opc1 crn rd cp opc2 crm) := by
  intro h
  refine ⟨_, rfl, ?_, ?_, ?_⟩
  · simp (disch := first | decide | assumption) [Row.accepts, encode, flag, or_and_mask, place_and_zero, condF, cond_place_ne, postW, noPUW, field12Ones, field16Ones, place_one, place_zero, IndexMode.p, IndexMode.w, BlockMode.p, BlockMode.u, place16_ne, place12_ne]
  · simp (disch := decide) [Row.proper, encode, flag, or_and_mask, place_and_zero, postW, noPUW, place_one, place_zero, IndexMode.p, IndexMode.w, BlockMode.p, BlockMode.u]
  · simp (disch := decide) [encode, flag, field_or, bitAt_or, field_place_same, field_place_disjoint, bitAt_place_same, bitAt_place_disjoint, cond_ofCode_code, shift_ofCode_code, indexMode_of, blockMode_of, join8, join16, field_lit, bitAt_lit]

theorem RoundTrip.mcrr2 (rn rd cp opc crm) : RoundTrip.Statement (.mcrr2 rn rd cp opc crm) := by
  intro h
  refine ⟨_, rfl, ?_, ?_, ?_⟩
  · simp (disch := first | decide | assumption) [Row.accepts, encode, flag, or_and_mask, place_and_zero, condF, cond_place_ne, postW, noPUW, field12Ones, field16Ones, place_one, place_zero, IndexMode.p, IndexMode.w, BlockMode.p, BlockMode.u, place16_ne, place12_ne]
  · simp (disch := decide) [Row.proper, encode, flag, or_and_mask, place_and_zero, postW, noPUW, place_one, place_zero, IndexMode.p, IndexMode.w, BlockMode.p, BlockMode.u]
  · simp (disch := decide) [encode, flag, field_or, bitAt_or, field_place_same, field_place_disjoint, bitAt_place_same, bitAt_place_disjoint, cond_ofCode_code, shift_ofCode_code, indexMode_of, blockMode_of, join8, join16, field_lit, bitAt_lit]

theorem RoundTrip.mrrc2 (rn rd cp opc crm) : RoundTrip.Statement (.mrrc2 rn rd cp opc crm) := by
  intro h
  refine ⟨_, rfl, ?_, ?_, ?_⟩
  · simp (disch := first | decide | assumption) [Row.accepts, encode, flag, or_and_mask, place_and_zero, condF, cond_place_ne, postW, noPUW, field12Ones, field16Ones, place_one, place_zero, IndexMode.p, IndexMode.w, BlockMode.p, BlockMode.u, place16_ne, place12_ne]
  · simp (disch := decide) [Row.proper, encode, flag, or_and_mask, place_and_zero, postW, noPUW, place_one, place_zero, IndexMode.p, IndexMode.w, BlockMode.p, BlockMode.u]
  · simp (disch := decide) [encode, flag, field_or, bitAt_or, field_place_same, field_place_disjoint, bitAt_place_same, bitAt_place_disjoint, cond_ofCode_code, shift_ofCode_code, indexMode_of, blockMode_of, join8, join16, field_lit, bitAt_lit]

end Sys2Proof.Laws
end

