-- ==== Sys2Proof/Tests/Slice0.lean ====
section
/-! SUPPORT. The model's own tests: ill-formed instructions refused; words written out from the encodings of
spec/opcode_table.json decoded, one for each constructor; single steps whose results are those of the spec's test vectors;
and, for each statement with hypotheses, a state and operands that meet them. -/
set_option Elab.async false
namespace Sys2Proof.Tests
open Sys2Proof Sys2Proof.Machine

/-- A state at an address with a CPSR, cells of the register file, SPSRs, words in memory (little-endian) and an
instruction at the address. -/
def start (pc cpsr : Word) (cells : List (Fin 30 × Word)) (spsrs : List (Fin 5 × Word)) (words : List (Nat × Word))
    (w : Nat) : State :=
  let s := { State.reset with
    pc := pc
    cpsr := cpsr
    gpr := cells.foldl (fun g (c : Fin 30 × Word) => g.set c.1 c.2) State.reset.gpr
    spsr := spsrs.foldl (fun g (c : Fin 5 × Word) => g.set c.1 c.2) State.reset.spsr
    mem := words.foldl (fun m (c : Nat × Word) => Memory.writeBytes m c.1 (littleOfWord c.2 4)) [] }
  s.withFetchWord 32 w

/-- The step from `s` gives a state with this PC and CPSR, with these cells and SPSRs and otherwise those of `s`, and with
these words in memory (little-endian). -/
def gives (s : State) (pc cpsr : Word) (cells : List (Fin 30 × Word)) (spsrs : List (Fin 5 × Word))
    (words : List (Nat × Word)) : Bool :=
  match step s with
  | .next t =>
    t.pc == pc && t.cpsr == cpsr && t.gpr == cells.foldl (fun g (c : Fin 30 × Word) => g.set c.1 c.2) s.gpr &&
      t.spsr == spsrs.foldl (fun g (c : Fin 5 × Word) => g.set c.1 c.2) s.spsr &&
      words.all (fun c => t.mem.readBytes c.1 4 == some (littleOfWord c.2 4))
  | .fault _ => false
  | .refused _ => false

/-- The step from `s` faults for this reason. -/
def faults (s : State) (f : Fault) : Bool :=
  match step s with
  | .next _ => false
  | .fault g => g == f
  | .refused _ => false

/-- Every word of the list decodes to its instruction. -/
def decodesAll (l : List (Word × Instr)) : Bool := l.all (fun p => decodeWord p.1 == .instr p.2)

/-! ### Well-formedness: an ill-formed term for each check, which the check refuses -/

theorem test_wf_smlad : (Instr.smlad .al 0 15 1 false 2).wf = false := rfl
theorem test_wf_smlsd : (Instr.smlsd .al 0 15 1 false 2).wf = false := rfl
theorem test_wf_smmla : (Instr.smmla .al 0 15 1 false 2).wf = false := rfl
theorem test_wf_usada8 : (Instr.usada8 .al 0 15 1 2).wf = false := rfl
theorem test_wf_sxtab16 : (Instr.sxtab16 .al 15 0 0 1).wf = false := rfl
theorem test_wf_sxtab : (Instr.sxtab .al 15 0 0 1).wf = false := rfl
theorem test_wf_sxtah : (Instr.sxtah .al 15 0 0 1).wf = false := rfl
theorem test_wf_uxtab16 : (Instr.uxtab16 .al 15 0 0 1).wf = false := rfl
theorem test_wf_uxtab : (Instr.uxtab .al 15 0 0 1).wf = false := rfl
theorem test_wf_uxtah : (Instr.uxtah .al 15 0 0 1).wf = false := rfl
theorem test_wf_ldc : (Instr.ldc .al false false true false 0 0 0 0).wf = false := rfl
theorem test_wf_stc : (Instr.stc .al false false true false 0 0 0 0).wf = false := rfl
theorem test_wf_ldc2 : (Instr.ldc2 false false true false 0 0 0 0).wf = false := rfl
theorem test_wf_stc2 : (Instr.stc2 false false true false 0 0 0 0).wf = false := rfl

/-! ### Decoding: words written out from the encodings of the opcode table -/

set_option maxRecDepth 20000

theorem test_decode_DataProcessing1 : decodesAll [
    (0x00147BAB, .andShift .eq true 4 7 23 .lsr 11),
    (0xE0059C53, .andReg .al false 5 9 12 .asr 3),
    (0xE216A17B, .andImm .al true 6 10 1 123),
    (0x3027B682, .eorShift .cc false 7 11 13 .lsl 2),
    (0xE039C336, .eorReg .al true 9 12 3 .lsr 6),
    (0xE22A1451, .eorImm .al false 10 1 4 81),
    (0x605B21E5, .subShift .vs true 11 2 3 .ror 5),
    (0xE04C361A, .subReg .al false 12 3 6 .lsl 10),
    (0xE2514727, .subImm .al true 1 4 7 39),
    (0x90625CC9, .rsbShift .ls false 2 5 25 .asr 9),
    (0xE0736A71, .rsbReg .al true 3 6 10 .ror 1),
    (0xE2647BFD, .rsbImm .al false 4 7 11 253),
    (0xC09597AC, .addShift .gt true 5 9 15 .lsr 12),
    (0xE086A154, .addReg .al false 6 10 1 .asr 4),
    (0xE297B2D3, .addImm .al true 7 11 2 211),
    (0x10A9C283, .adcShift .ne false 9 12 5 .lsl 3),
    (0xE0BA1437, .adcReg .al true 10 1 4 .lsr 7),
    (0xE2AB25A9, .adcImm .al false 11 2 5 169),
    (0x40DC3DE6, .sbcShift .mi true 12 3 27 .ror 6),
    (0xE0C1471B, .sbcReg .al false 1 4 7 .lsl 11),
    (0xE2D2597F, .sbcImm .al true 2 5 9 127),
    (0x70E368CA, .rscShift .vc false 3 6 17 .asr 10),
    (0xE0F47B72, .rscReg .al true 4 7 11 .ror 2),
    (0xE2E59C55, .rscImm .al false 5 9 12 85)] = true := by decide +kernel

theorem test_decode_DataProcessing2 : decodesAll [
    (0xA11303A6, .tstShift .ge 3 7 .lsr 6),
    (0xE114075B, .tstReg .al 4 7 .asr 11),
    (0xE315092B, .tstImm .al 5 9 43),
    (0xD1360E8A, .teqShift .le 6 29 .lsl 10),
    (0xE1370B32, .teqReg .al 7 11 .lsr 2),
    (0xE3390C01, .teqImm .al 9 12 1),
    (0x215A09E1, .cmpShift .cs 10 19 .ror 1),
    (0xE15B0215, .cmpReg .al 11 2 .lsl 5),
    (0xE35C03D7, .cmpImm .al 12 3 215),
    (0x517104C4, .cmnShift .pl 1 9 .asr 4),
    (0xE1720579, .cmnReg .al 2 5 .ror 9),
    (0xE37306AD, .cmnImm .al 3 6 173),
    (0x8197BFA2, .orrShift .hi true 7 11 31 .lsr 2),
    (0xE189C356, .orrReg .al false 9 12 3 .asr 6),
    (0xE39A1483, .orrImm .al true 10 1 4 131),
    (0xB1A0BA82, .movShift .lt false 11 21 .lsl 2),
    (0xE1B0C336, .movReg .al true 12 3 .lsr 6),
    (0xE3A01459, .movImm .al false 1 4 89),
    (0x01D255E9, .bicShift .eq true 2 5 11 .ror 9),
    (0xE1C36A11, .bicReg .al false 3 6 10 .lsl 1),
    (0xE3D47B2F, .bicImm .al true 4 7 11 47),
    (0x31E050C9, .mvnShift .cc false 5 1 .asr 9),
    (0xE1F06A71, .mvnReg .al true 6 10 .ror 1),
    (0xE3E07B05, .mvnImm .al false 7 11 5)] = true := by decide +kernel

theorem test_decode_Multiply : decodesAll [
    (0x60190C93, .mul .vs true 9 12 3),
    (0xE02A1497, .mla .al false 10 1 4 7),
    (0xE047B295, .umaal .al 7 11 2 5),
    (0x908C369A, .umull .ls false 12 3 6 10),
    (0xE0B1479B, .umlal .al true 1 4 7 11),
    (0xE0C2599C, .smull .al false 2 5 9 12),
    (0xC0F36A91, .smlal .gt true 3 6 10 1),
    (0xE1014785, .smlaXY .al 1 4 7 false false 5),
    (0xE12259C3, .smlawY .al 2 5 9 true 3),
    (0x112306E1, .smulwY .ne 3 6 true 1),
    (0xE1447BC9, .smlalXY .al 4 7 11 true false 9),
    (0xE16509C6, .smulXY .al 5 9 true false 6),
    (0x4706FA14, .smuad .mi 6 10 false 4),
    (0xE707FB55, .smusd .al 7 11 false 5),
    (0xE709C33A, .smlad .al 9 12 3 true 10),
    (0x770A145B, .smlsd .vc 10 1 4 false 11),
    (0xE74B253C, .smlald .al 11 2 5 true 12),
    (0xE74C3651, .smlsld .al 12 3 6 false 1),
    (0xA751F43B, .smmul .ge 1 4 true 11),
    (0xE7525913, .smmla .al 2 5 9 false 3),
    (0xE7536AF4, .smmls .al 3 6 10 true 4)] = true := by decide +kernel

theorem test_decode_Parallel1 : decodesAll [
    (0xD6147F1B, .sadd16 .le 4 7 11),
    (0xE6159F3C, .saddsubx .al 5 9 12),
    (0xE616AF51, .ssubaddx .al 6 10 1),
    (0x2617BF72, .ssub16 .cs 7 11 2),
    (0xE619CF93, .sadd8 .al 9 12 3),
    (0xE61A1FF4, .ssub8 .al 10 1 4),
    (0x562B2F15, .qadd16 .pl 11 2 5),
    (0xE62C3F36, .qaddsubx .al 12 3 6),
    (0xE6214F57, .qsubaddx .al 1 4 7),
    (0x86225F79, .qsub16 .hi 2 5 9),
    (0xE6236F9A, .qadd8 .al 3 6 10),
    (0xE6247FFB, .qsub8 .al 4 7 11),
    (0xB6359F1C, .shadd16 .lt 5 9 12),
    (0xE636AF31, .shaddsubx .al 6 10 1),
    (0xE637BF52, .shsubaddx .al 7 11 2),
    (0x0639CF73, .shsub16 .eq 9 12 3),
    (0xE63A1F94, .shadd8 .al 10 1 4),
    (0xE63B2FF5, .shsub8 .al 11 2 5),
    (0x365C3F16, .uadd16 .cc 12 3 6),
    (0xE6514F37, .uaddsubx .al 1 4 7),
    (0xE6525F59, .usubaddx .al 2 5 9),
    (0x66536F7A, .usub16 .vs 3 6 10),
    (0xE6547F9B, .uadd8 .al 4 7 11),
    (0xE6559FFC, .usub8 .al 5 9 12)] = true := by decide +kernel

theorem test_decode_Parallel2 : decodesAll [
    (0x9666AF11, .uqadd16 .ls 6 10 1),
    (0xE667BF32, .uqaddsubx .al 7 11 2),
    (0xE669CF53, .uqsubaddx .al 9 12 3),
    (0xC66A1F74, .uqsub16 .gt 10 1 4),
    (0xE66B2F95, .uqadd8 .al 11 2 5),
    (0xE66C3FF6, .uqsub8 .al 12 3 6),
    (0x16714F17, .uhadd16 .ne 1 4 7),
    (0xE6725F39, .uhaddsubx .al 2 5 9),
    (0xE6736F5A, .uhsubaddx .al 3 6 10),
    (0x46747F7B, .uhsub16 .mi 4 7 11),
    (0xE6759F9C, .uhadd8 .al 5 9 12),
    (0xE676AFF1, .uhsub8 .al 6 10 1)] = true := by decide +kernel

theorem test_decode_ExtendMisc1 : decodesAll [
    (0x7687B872, .sxtab16 .vc 7 11 2 2),
    (0xE68F9C7C, .sxtb16 .al 9 3 12),
    (0xE6AA1074, .sxtab .al 10 1 0 4),
    (0xA6AFB472, .sxtb .ge 11 1 2),
    (0xE6BC3876, .sxtah .al 12 3 2 6),
    (0xE6BF1C74, .sxth .al 1 3 4),
    (0xD6C25079, .uxtab16 .le 2 5 0 9),
    (0xE6CF3476, .uxtb16 .al 3 1 6),
    (0xE6E4787B, .uxtab .al 4 7 2 11),
    (0x26EF5C79, .uxtb .cs 5 3 9),
    (0xE6F6A071, .uxtah .al 6 10 0 1),
    (0xE6FF747B, .uxth .al 7 1 11),
    (0x516F9F1C, .clz .pl 9 12),
    (0xE78AF114, .usad8 .al 10 1 4),
    (0xE78B2519, .usada8 .al 11 2 5 9),
    (0x868C3396, .pkhbt .hi 12 3 7 6),
    (0xE6814CD7, .pkhtb .al 1 4 25 7),
    (0xE6BF2F35, .rev .al 2 5),
    (0xB6BF3FB6, .rev16 .lt 3 6),
    (0xE6FF4FB7, .revsh .al 4 7),
    (0xE6859FBC, .sel .al 5 9 12),
    (0x06B36991, .ssat .eq 19 6 19 false 1),
    (0xE6A7BF32, .ssat16 .al 7 11 2),
    (0xE6F79BD3, .usat .al 23 9 23 true 3)] = true := by decide +kernel

theorem test_decode_ExtendMisc2 : decodesAll [
    (0x36EA1F34, .usat16 .cc 10 1 4),
    (0xE10B2055, .qadd .al 11 2 5),
    (0xE12C3056, .qsub .al 12 3 6),
    (0x61414057, .qdadd .vs 1 4 7),
    (0xE1625059, .qdsub .al 2 5 9)] = true := by decide +kernel

theorem test_decode_StatusRegister : decodesAll [
    (0xE14F6000, .mrs .al true 6),
    (0x9327FB35, .msrImm .ls false 7 11 53),
    (0xE169F00C, .msrReg .al true 9 12),
    (0xF1080193, .cps 2 false true true false 19),
    (0xF1010200, .setend true)] = true := by decide +kernel

theorem test_decode_Branch : decodesAll [
    (0xEA746BFD, .b .al 0x746BFD),
    (0xEBB0D5EF, .bl .al 0xB0D5EF),
    (0xFAED3FE1, .blx1 false 0xED3FE1),
    (0xE12FFF3C, .blx2 .al 12),
    (0xE12FFF11, .bx .al 1),
    (0x412FFF22, .bxj .mi 2)] = true := by decide +kernel

theorem test_decode_LoadStore1 : decodesAll [
    (0xE5B147A9, .ldrImm .al .pre true 1 4 0x7A9),
    (0xE6125DE9, .ldrReg .al .post false 2 5 27 .ror 9),
    (0x75536B8D, .ldrbImm .vc .offset false 3 6 0xB8D),
    (0xE7F47FAB, .ldrbReg .al .pre true 4 7 31 .lsr 11),
    (0xE4859F71, .strImm .al .post true 5 9 0xF71),
    (0xA706A1E1, .strReg .ge .offset false 6 10 3 .ror 1),
    (0xE567B355, .strbImm .al .pre false 7 11 0x355),
    (0xE6C9C3A3, .strbReg .al .post true 9 12 7 .lsr 3),
    (0xD4336739, .ldrtImm .le false 3 6 0x739),
    (0xE6B475EB, .ldrtReg .al true 4 7 11 .ror 11),
    (0xE4759B1D, .ldrbtImm .al false 5 9 0xB1D),
    (0x26F6A7A1, .ldrbtReg .cs true 6 10 15 .lsr 1),
    (0xE427BF01, .strtImm .al false 7 11 0xF01),
    (0xE6A9C9E3, .strtReg .al true 9 12 19 .ror 3),
    (0x546A12E5, .strbtImm .pl false 10 1 0x2E5),
    (0xE6EB2BA5, .strbtReg .al true 11 2 23 .lsr 5),
    (0xE0C6A1B4, .strhImm .al .post true 6 10 20),
    (0x8107B0B2, .strhReg .hi .offset false 7 11 2),
    (0xE169C3D6, .ldrdImm .al .pre false 9 12 54),
    (0xE08A10D4, .ldrdReg .al .post true 10 1 4),
    (0xB1CB25F9, .strdImm .lt .offset true 11 2 89),
    (0xE12C30F6, .strdReg .al .pre false 12 3 6),
    (0xE05147BB, .ldrhImm .al .post false 1 4 123),
    (0x019250B9, .ldrhReg .eq .offset true 2 5 9)] = true := by decide +kernel

theorem test_decode_LoadStore2 : decodesAll [
    (0xE1F36AD1, .ldrsbImm .al .pre true 3 6 161),
    (0xE01470DB, .ldrsbReg .al .post false 4 7 11),
    (0x31559CF3, .ldrshImm .cc .offset false 5 9 195),
    (0xE1B6A0F1, .ldrshReg .al .pre true 6 10 1),
    (0xE19A1F9F, .ldrex .al 10 1),
    (0x618B2F95, .strex .vs 11 2 5),
    (0xF553F205, .pldImm false 3 0x205),
    (0xF7D4FBA7, .pldReg true 4 23 .lsr 7)] = true := by decide +kernel

theorem test_decode_LoadStoreMultiple : decodesAll [
    (0x98BC25E9, .ldm1 .ls .ia true 12 0x25E9),
    (0xE95A0FDB, .ldm2 .al .db 10 0xFDB),
    (0xE872F9CD, .ldm3 .al .da true 2 0x79CD),
    (0xC98363BF, .stm1 .gt .ib false 3 0x63BF),
    (0xE8C1CDB1, .stm2 .al .ia 1 0xCDB1),
    (0xF9150A00, .rfe .db false 5),
    (0xF84D0513, .srs .da false 19),
    (0xE10A1094, .swp .al 10 1 4),
    (0xE14B2095, .swpb .al 11 2 5)] = true := by decide +kernel

theorem test_decode_ExceptionGenerating : decodesAll [
    (0x4F8BDF6B, .swi .mi 0x8BDF6B),
    (0xE1295D71, .bkpt .al 0x95D1),
    (0xE7F34FF2, .undef .al 0x34F2)] = true := by decide +kernel

theorem test_decode_Coprocessor : decodesAll [
    (0x7E36A184, .cdp .vc 3 6 10 1 4 4),
    (0xED359C33, .ldc .al true false false true 5 9 12 51),
    (0xED06A125, .stc .al true false false false 6 10 1 37),
    (0xAEA6A1B4, .mcr .ge 5 6 10 1 5 4),
    (0xEE17B215, .mrc .al 0 7 11 2 0 5),
    (0xEC49C36A, .mcrr .al 9 12 3 6 10),
    (0xDC5A147B, .mrrc .le 10 1 4 7 11),
    (0xFEB2592C, .cdp2 11 2 5 9 1 12),
    (0xFD9147D1, .ldc2 true true false false 1 4 7 209),
    (0xFD2259C3, .stc2 true false false true 2 5 9 195),
    (0xFE42595C, .mcr2 2 2 5 9 2 12),
    (0xFEB36AB1, .mrc2 5 3 6 10 5 1),
    (0xFC447B25, .mcrr2 4 7 11 2 5),
    (0xFC559C36, .mrrc2 5 9 12 3 6)] = true := by decide +kernel

/-! ### Single steps, from the spec's test vectors -/

/-- 95_test_vectors.md line 21. -/
theorem test_bcc_fails : gives (start 0x00008004 0x20000010 [] [] [] 0x3A000005)
    0x00008008 0x20000010 [] [] [] = true := by decide +kernel

/-- 95_test_vectors.md line 25. -/
theorem test_bl : gives (start 0x00008010 0x00000010 [] [] [] 0xEB00000A)
    0x00008040 0x00000010 [(19, 0x00008014)] [] [] = true := by decide +kernel

/-- 41_branch.md R181: a target below 0. The row of 95_test_vectors.md line 226 has it go on, and the rule wins (its
line 3). -/
theorem test_b_wraps : faults (start 0x00000000 0x00000010 [] [] [] 0xEAFFFFFD) .pcWrap = true := by decide +kernel

/-- 41_branch.md R181: `B .` at 0xFFFFFFFC, whose target is an address, goes on. -/
theorem test_b_to_itself_at_the_top : gives (start 0xFFFFFFFC 0x00000010 [] [] [] 0xEAFFFFFE)
    0xFFFFFFFC 0x00000010 [] [] [] = true := by decide +kernel

/-- 95_test_vectors.md line 230. -/
theorem test_blx_to_thumb_halfword : gives (start 0x00008000 0x00000010 [] [] [] 0xFB000002)
    0x00008012 0x00000030 [(19, 0x00008004)] [] [] = true := by decide +kernel

/-- 95_test_vectors.md line 233. -/
theorem test_bx_bad_target : faults (start 0x00008000 0x00000010 [(3, 0x00009002)] [] [] 0xE12FFF13) .interworkAlign = true := by decide +kernel

/-- 95_test_vectors.md line 236. -/
theorem test_blx_r14 : gives (start 0x00008000 0x00000010 [(19, 0x00009000)] [] [] 0xE12FFF3E)
    0x00009000 0x00000010 [(19, 0x00008004)] [] [] = true := by decide +kernel

/-- 95_test_vectors.md line 239. -/
theorem test_add_to_pc : gives (start 0x00008000 0x00000010 [(0, 0x00000003)] [] [] 0xE08FF100)
    0x00008014 0x00000010 [] [] [] = true := by decide +kernel

/-- 95_test_vectors.md line 255. -/
theorem test_lsr_32 : gives (start 0x00008000 0x00000010 [(1, 0x80000001)] [] [] 0xE1B00021)
    0x00008004 0x60000010 [(0, 0x00000000)] [] [] = true := by decide +kernel

/-- 95_test_vectors.md line 262. -/
theorem test_rrx : gives (start 0x00008000 0x20000010 [(1, 0x80000001)] [] [] 0xE1B00061)
    0x00008004 0xA0000010 [(0, 0xC0000000)] [] [] = true := by decide +kernel

/-- 95_test_vectors.md line 275. -/
theorem test_lsl_by_register_uses_a_byte : gives (start 0x00008000 0x00000010 [(1, 0x80000001), (2, 0x00000120)] [] [] 0xE1B00211)
    0x00008004 0x60000010 [(0, 0x00000000)] [] [] = true := by decide +kernel

/-- 95_test_vectors.md line 288. -/
theorem test_asr_33 : gives (start 0x00008000 0x00000010 [(1, 0x80000001), (2, 0x00000021)] [] [] 0xE1B00251)
    0x00008004 0xA0000010 [(0, 0xFFFFFFFF)] [] [] = true := by decide +kernel

/-- 95_test_vectors.md line 295. -/
theorem test_ror_32 : gives (start 0x00008000 0x00000010 [(1, 0x80000001), (2, 0x00000020)] [] [] 0xE1B00271)
    0x00008004 0xA0000010 [(0, 0x80000001)] [] [] = true := by decide +kernel

/-- 95_test_vectors.md line 309. -/
theorem test_immediate_rotated : gives (start 0x00008000 0x00000010 [(1, 0x80000001)] [] [] 0xE3B004FF)
    0x00008004 0xA0000010 [(0, 0xFF000000)] [] [] = true := by decide +kernel

/-- 95_test_vectors.md line 358. -/
theorem test_ands : gives (start 0x00008000 0x10000010 [(1, 0xFFFF0000), (2, 0x80FF00FF)] [] [] 0xE0110002)
    0x00008004 0x90000010 [(0, 0x80FF0000)] [] [] = true := by decide +kernel

/-- 95_test_vectors.md line 360. -/
theorem test_eors : gives (start 0x00008000 0x10000010 [(1, 0xAAAAAAAA), (2, 0x55555555)] [] [] 0xE0310002)
    0x00008004 0x90000010 [(0, 0xFFFFFFFF)] [] [] = true := by decide +kernel

/-- 95_test_vectors.md line 321. -/
theorem test_adds_overflow : gives (start 0x00008000 0x00000010 [(1, 0x7FFFFFFF), (2, 0x00000001)] [] [] 0xE0910002)
    0x00008004 0x90000010 [(0, 0x80000000)] [] [] = true := by decide +kernel

/-- 95_test_vectors.md line 327. -/
theorem test_subs_overflow : gives (start 0x00008000 0x00000010 [(1, 0x80000000), (2, 0x00000001)] [] [] 0xE0510002)
    0x00008004 0x30000010 [(0, 0x7FFFFFFF)] [] [] = true := by decide +kernel

/-- 95_test_vectors.md line 330. -/
theorem test_rsbs : gives (start 0x00008000 0x00000010 [(1, 0x80000000), (2, 0x00000000)] [] [] 0xE0710002)
    0x00008004 0x90000010 [(0, 0x80000000)] [] [] = true := by decide +kernel

/-- 95_test_vectors.md line 334. -/
theorem test_adcs : gives (start 0x00008000 0x20000010 [(1, 0xFFFFFFFF), (2, 0xFFFFFFFF)] [] [] 0xE0B10002)
    0x00008004 0xA0000010 [(0, 0xFFFFFFFF)] [] [] = true := by decide +kernel

/-- 95_test_vectors.md line 336. -/
theorem test_sbcs : gives (start 0x00008000 0x00000010 [(1, 0x00000005), (2, 0x00000005)] [] [] 0xE0D10002)
    0x00008004 0x80000010 [(0, 0xFFFFFFFF)] [] [] = true := by decide +kernel

/-- 95_test_vectors.md line 342. -/
theorem test_rscs : gives (start 0x00008000 0x20000010 [(1, 0x00000001), (2, 0x80000000)] [] [] 0xE0F10002)
    0x00008004 0x30000010 [(0, 0x7FFFFFFF)] [] [] = true := by decide +kernel

/-- 95_test_vectors.md line 362. -/
theorem test_tst : gives (start 0x00008000 0x10000010 [(1, 0x00000010), (2, 0x00000001)] [] [] 0xE1110002)
    0x00008004 0x50000010 [] [] [] = true := by decide +kernel

/-- 95_test_vectors.md line 364. -/
theorem test_teq : gives (start 0x00008000 0x10000010 [(1, 0x80000000), (2, 0x00000000)] [] [] 0xE1310002)
    0x00008004 0x90000010 [] [] [] = true := by decide +kernel

/-- 95_test_vectors.md line 347. -/
theorem test_cmp : gives (start 0x00008000 0x00000010 [(1, 0x00000000), (2, 0x80000000)] [] [] 0xE1510002)
    0x00008004 0x90000010 [] [] [] = true := by decide +kernel

/-- 95_test_vectors.md line 348. -/
theorem test_cmn : gives (start 0x00008000 0x00000010 [(1, 0xFFFFFFFF), (2, 0x00000001)] [] [] 0xE1710002)
    0x00008004 0x60000010 [] [] [] = true := by decide +kernel

/-- 95_test_vectors.md line 366. -/
theorem test_orrs : gives (start 0x00008000 0x10000010 [(1, 0x80000000), (2, 0x00000001)] [] [] 0xE1910002)
    0x00008004 0x90000010 [(0, 0x80000001)] [] [] = true := by decide +kernel

/-- 95_test_vectors.md line 368. -/
theorem test_bics : gives (start 0x00008000 0x10000010 [(1, 0xFFFFFFFF), (2, 0xFFFFFFFF)] [] [] 0xE1D10002)
    0x00008004 0x50000010 [(0, 0x00000000)] [] [] = true := by decide +kernel

/-- 95_test_vectors.md line 370. -/
theorem test_mvns : gives (start 0x00008000 0x10000010 [(1, 0x00000000), (2, 0xFFFFFFFF)] [] [] 0xE1F00002)
    0x00008004 0x50000010 [(0, 0x00000000)] [] [] = true := by decide +kernel

/-- 95_test_vectors.md line 395. -/
theorem test_subs_pc_returns : gives (start 0x00008000 0x20000192 [(27, 0x00008018)] [(3, 0x20000010)] [] 0xE25EF004)
    0x00008014 0x20000010 [] [] [] = true := by decide +kernel

/-- 95_test_vectors.md line 397. -/
theorem test_movs_pc_in_user_mode : faults (start 0x00008000 0x00000010 [] [] [] 0xE1B0F00E) .noSpsr = true := by decide +kernel

/-- 95_test_vectors.md line 411. -/
theorem test_muls : gives (start 0x00008000 0x00000010 [(1, 0x7FFFFFFF), (2, 0x00000002)] [] [] 0xE0100291)
    0x00008004 0x80000010 [(0, 0xFFFFFFFE)] [] [] = true := by decide +kernel

/-- 95_test_vectors.md line 414. -/
theorem test_mlas : gives (start 0x00008000 0x30000010 [(1, 0x00000003), (2, 0x00000005), (3, 0xFFFFFFF1)] [] [] 0xE0303291)
    0x00008004 0x70000010 [(0, 0x00000000)] [] [] = true := by decide +kernel

/-- 95_test_vectors.md line 415. -/
theorem test_umulls : gives (start 0x00008000 0x30000010 [(2, 0xFFFFFFFF), (3, 0xFFFFFFFF)] [] [] 0xE0910392)
    0x00008004 0xB0000010 [(0, 0x00000001), (1, 0xFFFFFFFE)] [] [] = true := by decide +kernel

/-- 95_test_vectors.md line 420. -/
theorem test_umlal : gives (start 0x00008000 0x00000010 [(0, 0xFFFFFFFF), (1, 0xFFFFFFFF), (2, 0x00000001), (3, 0x00000001)] [] [] 0xE0A10392)
    0x00008004 0x00000010 [(0, 0x00000000), (1, 0x00000000)] [] [] = true := by decide +kernel

/-- 95_test_vectors.md line 418. -/
theorem test_smulls : gives (start 0x00008000 0x00000010 [(2, 0x80000000), (3, 0x7FFFFFFF)] [] [] 0xE0D10392)
    0x00008004 0x80000010 [(0, 0x80000000), (1, 0xC0000000)] [] [] = true := by decide +kernel

/-- 95_test_vectors.md line 423. -/
theorem test_smlals : gives (start 0x00008000 0x00000010 [(0, 0xFFFFFFFF), (1, 0x7FFFFFFF), (2, 0x00000001), (3, 0x00000001)] [] [] 0xE0F10392)
    0x00008004 0x80000010 [(0, 0x00000000), (1, 0x80000000)] [] [] = true := by decide +kernel

/-- 95_test_vectors.md line 424. -/
theorem test_umaal : gives (start 0x00008000 0xF0000010 [(0, 0xFFFFFFFF), (1, 0xFFFFFFFF), (2, 0xFFFFFFFF), (3, 0xFFFFFFFF)] [] [] 0xE0410392)
    0x00008004 0xF0000010 [] [] [] = true := by decide +kernel

/-- 95_test_vectors.md line 438. -/
theorem test_smlabb_sets_q : gives (start 0x00008000 0x00000010 [(1, 0x00008000), (2, 0x00008000), (3, 0x40000000)] [] [] 0xE1003281)
    0x00008004 0x08000010 [(0, 0x80000000)] [] [] = true := by decide +kernel

/-- 95_test_vectors.md line 444. -/
theorem test_smlawb_sets_q : gives (start 0x00008000 0x00000010 [(1, 0x80000000), (2, 0x00008000), (3, 0x40000000)] [] [] 0xE1203281)
    0x00008004 0x08000010 [(0, 0x80000000)] [] [] = true := by decide +kernel

/-- 95_test_vectors.md line 442. -/
theorem test_smulwt : gives (start 0x00008000 0x00000010 [(1, 0x7FFF8000), (2, 0x0002FFFF)] [] [] 0xE12002E1)
    0x00008004 0x00000010 [(0, 0x0000FFFF)] [] [] = true := by decide +kernel

/-- 95_test_vectors.md line 447. -/
theorem test_smlaltt : gives (start 0x00008000 0x00000010 [(0, 0x00000000), (1, 0x00000000), (2, 0x80000000), (3, 0x7FFF0000)] [] [] 0xE14103E2)
    0x00008004 0x00000010 [(0, 0xC0008000), (1, 0xFFFFFFFF)] [] [] = true := by decide +kernel

/-- 95_test_vectors.md line 435. -/
theorem test_smulbt : gives (start 0x00008000 0x00000010 [(1, 0x7FFF8000), (2, 0x0002FFFF)] [] [] 0xE16002C1)
    0x00008004 0x00000010 [(0, 0xFFFF0000)] [] [] = true := by decide +kernel

/-- 95_test_vectors.md line 464. -/
theorem test_smuad_sets_q : gives (start 0x00008000 0x00000010 [(1, 0x80008000), (2, 0x80008000)] [] [] 0xE700F211)
    0x00008004 0x08000010 [(0, 0x80000000)] [] [] = true := by decide +kernel

/-- 95_test_vectors.md line 468. -/
theorem test_smusdx : gives (start 0x00008000 0x00000010 [(1, 0x00020003), (2, 0x00040005)] [] [] 0xE700F271)
    0x00008004 0x00000010 [(0, 0x00000002)] [] [] = true := by decide +kernel

/-- 95_test_vectors.md line 469. -/
theorem test_smlad : gives (start 0x00008000 0x00000010 [(1, 0x7FFF7FFF), (2, 0x7FFF7FFF), (3, 0x7FFFFFFF)] [] [] 0xE7003211)
    0x00008004 0x08000010 [(0, 0xFFFE0001)] [] [] = true := by decide +kernel

/-- 95_test_vectors.md line 472. -/
theorem test_smlsdx : gives (start 0x00008000 0x00000010 [(1, 0x00020003), (2, 0x00040005), (3, 0x80000000)] [] [] 0xE7003271)
    0x00008004 0x00000010 [(0, 0x80000002)] [] [] = true := by decide +kernel

/-- 95_test_vectors.md line 473. -/
theorem test_smlald : gives (start 0x00008000 0x00000010 [(0, 0xFFFFFFFF), (1, 0x7FFFFFFF), (2, 0x00010001), (3, 0x00010001)] [] [] 0xE7410312)
    0x00008004 0x00000010 [(0, 0x00000001), (1, 0x80000000)] [] [] = true := by decide +kernel

/-- 95_test_vectors.md line 475. -/
theorem test_smlsld : gives (start 0x00008000 0x00000010 [(0, 0x00000000), (1, 0x00000000), (2, 0x00030002), (3, 0x00050004)] [] [] 0xE7410352)
    0x00008004 0x00000010 [(0, 0xFFFFFFF9), (1, 0xFFFFFFFF)] [] [] = true := by decide +kernel

/-- 95_test_vectors.md line 460. -/
theorem test_smmulr : gives (start 0x00008000 0x00000010 [(1, 0xFFFFFFFF), (2, 0x00000001)] [] [] 0xE750F231)
    0x00008004 0x00000010 [(0, 0x00000000)] [] [] = true := by decide +kernel

/-- 95_test_vectors.md line 461. -/
theorem test_smmla : gives (start 0x00008000 0x00000010 [(1, 0x40000000), (2, 0x00000004), (3, 0x7FFFFFFF)] [] [] 0xE7503211)
    0x00008004 0x00000010 [(0, 0x80000000)] [] [] = true := by decide +kernel

/-- 95_test_vectors.md line 462. -/
theorem test_smmls : gives (start 0x00008000 0x00000010 [(1, 0x00000001), (2, 0x00000001), (3, 0x00000005)] [] [] 0xE75032D1)
    0x00008004 0x00000010 [(0, 0x00000004)] [] [] = true := by decide +kernel

/-- 95_test_vectors.md line 487. -/
theorem test_saddsubx : gives (start 0x00008000 0x00000010 [(1, 0x00FF8001), (2, 0x01017FFF)] [] [] 0xE6110F32)
    0x00008004 0x000C0010 [(0, 0x80FE7F00)] [] [] = true := by decide +kernel

/-- 95_test_vectors.md line 488. -/
theorem test_ssubaddx : gives (start 0x00008000 0x00000010 [(1, 0x12345678), (2, 0x9ABCDEF0)] [] [] 0xE6110F52)
    0x00008004 0x000C0010 [(0, 0x3344F134)] [] [] = true := by decide +kernel

/-- 95_test_vectors.md line 490. -/
theorem test_sadd8 : gives (start 0x00008000 0x00000010 [(1, 0x00FF8001), (2, 0x01017FFF)] [] [] 0xE6110F92)
    0x00008004 0x000D0010 [(0, 0x0100FF00)] [] [] = true := by decide +kernel

/-- 95_test_vectors.md line 497. -/
theorem test_qsub8 : gives (start 0x00008000 0x00000010 [(1, 0x00FF8001), (2, 0x01017FFF)] [] [] 0xE6210FF2)
    0x00008004 0x00000010 [(0, 0xFFFE8002)] [] [] = true := by decide +kernel

/-- 95_test_vectors.md line 500. -/
theorem test_shsubaddx : gives (start 0x00008000 0x00000010 [(1, 0x00FF8001), (2, 0x01017FFF)] [] [] 0xE6310F52)
    0x00008004 0x00000010 [(0, 0xC080C081)] [] [] = true := by decide +kernel

/-- 95_test_vectors.md line 504. -/
theorem test_uadd16 : gives (start 0x00008000 0x00000010 [(1, 0x00FF8001), (2, 0x01017FFF)] [] [] 0xE6510F12)
    0x00008004 0x00030010 [(0, 0x02000000)] [] [] = true := by decide +kernel

/-- 95_test_vectors.md line 509. -/
theorem test_usub8 : gives (start 0x00008000 0x00000010 [(1, 0x00FF8001), (2, 0x01017FFF)] [] [] 0xE6510FF2)
    0x00008004 0x00060010 [(0, 0xFFFE0102)] [] [] = true := by decide +kernel

/-- 95_test_vectors.md line 511. -/
theorem test_uqaddsubx : gives (start 0x00008000 0x00000010 [(1, 0x12345678), (2, 0x9ABCDEF0)] [] [] 0xE6610F32)
    0x00008004 0x00000010 [(0, 0xF1240000)] [] [] = true := by decide +kernel

/-- 95_test_vectors.md line 520. -/
theorem test_uhadd8 : gives (start 0x00008000 0x00000010 [(1, 0x00FF8001), (2, 0x01017FFF)] [] [] 0xE6710F92)
    0x00008004 0x00000010 [(0, 0x00807F80)] [] [] = true := by decide +kernel

/-- 95_test_vectors.md line 534. -/
theorem test_sxtb16 : gives (start 0x00008000 0x00000010 [(1, 0x80FF7F01)] [] [] 0xE68F0471)
    0x00008004 0x00000010 [(0, 0xFF80007F)] [] [] = true := by decide +kernel

/-- 95_test_vectors.md line 561. -/
theorem test_sxtab16 : gives (start 0x00008000 0x00000010 [(1, 0x000080FF), (2, 0xFFFFFFFF)] [] [] 0xE6820071)
    0x00008004 0x00000010 [(0, 0xFFFFFFFE)] [] [] = true := by decide +kernel

/-- 95_test_vectors.md line 544. -/
theorem test_sxth : gives (start 0x00008000 0x00000010 [(1, 0x80FF7F01)] [] [] 0xE6BF0C71)
    0x00008004 0x00000010 [(0, 0x00000180)] [] [] = true := by decide +kernel

/-- 95_test_vectors.md line 562. -/
theorem test_sxtab : gives (start 0x00008000 0x00000010 [(1, 0x80FF7F01), (2, 0x00010001)] [] [] 0xE6A20471)
    0x00008004 0x00000010 [(0, 0x00010080)] [] [] = true := by decide +kernel

/-- 95_test_vectors.md line 571. -/
theorem test_uxtah : gives (start 0x00008000 0x00000010 [(1, 0x000080FF), (2, 0xFFFFFFFF)] [] [] 0xE6F20071)
    0x00008004 0x00000010 [(0, 0x000080FE)] [] [] = true := by decide +kernel

/-- 95_test_vectors.md line 580. -/
theorem test_pkhtb : gives (start 0x00008000 0x00000010 [(1, 0x11112222), (2, 0x33334444)] [] [] 0xE6810852)
    0x00008004 0x00000010 [(0, 0x11113333)] [] [] = true := by decide +kernel

/-- 95_test_vectors.md line 578. -/
theorem test_pkhbt : gives (start 0x00008000 0x00000010 [(1, 0x11112222), (2, 0x33334444)] [] [] 0xE6810812)
    0x00008004 0x00000010 [(0, 0x44442222)] [] [] = true := by decide +kernel

/-- 95_test_vectors.md line 584. -/
theorem test_rev16 : gives (start 0x00008000 0x00000010 [(1, 0x11223344)] [] [] 0xE6BF0FB1)
    0x00008004 0x00000010 [(0, 0x22114433)] [] [] = true := by decide +kernel

/-- 95_test_vectors.md line 585. -/
theorem test_revsh : gives (start 0x00008000 0x00000010 [(1, 0x11220080)] [] [] 0xE6FF0FB1)
    0x00008004 0x00000010 [(0, 0xFFFF8000)] [] [] = true := by decide +kernel

/-- 95_test_vectors.md line 587. -/
theorem test_sel : gives (start 0x00008000 0x000A0010 [(1, 0xAAAAAAAA), (2, 0x55555555)] [] [] 0xE6810FB2)
    0x00008004 0x000A0010 [(0, 0xAA55AA55)] [] [] = true := by decide +kernel

/-- 95_test_vectors.md line 590. -/
theorem test_clz : gives (start 0x00008000 0x00000010 [(1, 0x00000000)] [] [] 0xE16F0F11)
    0x00008004 0x00000010 [(0, 0x00000020)] [] [] = true := by decide +kernel

/-- 95_test_vectors.md line 596. -/
theorem test_usada8 : gives (start 0x00008000 0x00000010 [(1, 0xFF00FF00), (2, 0x00FF00FF), (3, 0xFFFFFF00)] [] [] 0xE7803211)
    0x00008004 0x00000010 [(0, 0x000002FC)] [] [] = true := by decide +kernel

/-- 95_test_vectors.md line 607. -/
theorem test_ssat : gives (start 0x00008000 0x00000010 [(1, 0xFFFFFF7F)] [] [] 0xE6A70011)
    0x00008004 0x08000010 [(0, 0xFFFFFF80)] [] [] = true := by decide +kernel

/-- 95_test_vectors.md line 616. -/
theorem test_usat : gives (start 0x00008000 0x00000010 [(1, 0xFFFFFFFF)] [] [] 0xE6E80011)
    0x00008004 0x08000010 [(0, 0x00000000)] [] [] = true := by decide +kernel

/-- 95_test_vectors.md line 618. -/
theorem test_ssat16 : gives (start 0x00008000 0x00000010 [(1, 0x7FFF8000)] [] [] 0xE6A70F31)
    0x00008004 0x08000010 [(0, 0x007FFF80)] [] [] = true := by decide +kernel

/-- 95_test_vectors.md line 621. -/
theorem test_usat16 : gives (start 0x00008000 0x00000010 [(1, 0x0100FFFF)] [] [] 0xE6E80F31)
    0x00008004 0x08000010 [(0, 0x00FF0000)] [] [] = true := by decide +kernel

/-- 95_test_vectors.md line 628. -/
theorem test_qadd : gives (start 0x00008000 0x00000010 [(1, 0x7FFFFFFF), (2, 0x00000001)] [] [] 0xE1020051)
    0x00008004 0x08000010 [(0, 0x7FFFFFFF)] [] [] = true := by decide +kernel

/-- 95_test_vectors.md line 632. -/
theorem test_qsub : gives (start 0x00008000 0x00000010 [(1, 0x00000000), (2, 0x80000000)] [] [] 0xE1220051)
    0x00008004 0x08000010 [(0, 0x7FFFFFFF)] [] [] = true := by decide +kernel

/-- 95_test_vectors.md line 635. -/
theorem test_qdadd : gives (start 0x00008000 0x00000010 [(1, 0x80000000), (2, 0x40000000)] [] [] 0xE1420051)
    0x00008004 0x08000010 [(0, 0xFFFFFFFF)] [] [] = true := by decide +kernel

/-- 95_test_vectors.md line 638. -/
theorem test_qdsub : gives (start 0x00008000 0x00000010 [(1, 0xFFFFFFFF), (2, 0x80000000)] [] [] 0xE1620051)
    0x00008004 0x08000010 [(0, 0x7FFFFFFF)] [] [] = true := by decide +kernel

/-- 95_test_vectors.md line 649. -/
theorem test_mrs_in_user_mode : faults (start 0x00008000 0x00000010 [] [] [] 0xE14F0000) .noSpsr = true := by decide +kernel

/-- 95_test_vectors.md line 651. -/
theorem test_msr_reserved_bit : faults (start 0x00008000 0x00000010 [(1, 0xFFFFFFFF)] [] [] 0xE128F001) .reservedPsrBit = true := by decide +kernel

/-- 95_test_vectors.md line 648. -/
theorem test_mrs_spsr : gives (start 0x00008000 0x00000013 [] [(0, 0x80000030)] [] 0xE14F0000)
    0x00008004 0x00000013 [(0, 0x80000030)] [] [] = true := by decide +kernel

/-- 95_test_vectors.md line 161. -/
theorem test_swi : gives (start 0x00008000 0x60000010 [] [] [] 0xEF123456)
    0x00000008 0x60000093 [(21, 0x00008004)] [(0, 0x60000010)] [] = true := by decide +kernel

/-- 95_test_vectors.md line 163. -/
theorem test_bkpt : gives (start 0x00008000 0x60000010 [] [] [] 0xE12ABC7D)
    0x0000000C 0x60000197 [(23, 0x00008004)] [(1, 0x60000010)] [] = true := by decide +kernel

/-! ### Single steps that reach memory or change mode, from the spec's test vectors -/

/-- The bytes of 96_test_vectors_2.md from 0x3000: 11 22 33 44 55 66 77 88 01 7F FF 80 99 AA BB CC. -/
def bytes3000 : List (Nat × Word) := [(0x00003000, 0x44332211), (0x00003004, 0x88776655), (0x00003008, 0x80FF7F01), (0x0000300C, 0xCCBBAA99)]

/-- 95_test_vectors.md line 28. -/
theorem test_ldr_pc : gives (start 0x00008048 0x00000010 [] [] [(0x00008050, 0x00008040)] 0xE59FF000)
    0x00008040 0x00000010 [] [] [] = true := by decide +kernel

/-- 95_test_vectors.md line 104. -/
theorem test_ldr_pre_writeback : gives (start 0x00008000 0x00000010 [(0, 0x00001010)] [] [(0x00001014, 0xF7E6D5C4)] 0xE5B01004)
    0x00008004 0x00000010 [(0, 0x00001014), (1, 0xF7E6D5C4)] [] [] = true := by decide +kernel

/-- 95_test_vectors.md line 110. -/
theorem test_ldr_post_register : gives (start 0x00008000 0x00000010 [(1, 0x00002020), (2, 0x00003030)] [] [(0x00002020, 0xB3A29180)] 0xE6910002)
    0x00008004 0x00000010 [(0, 0xB3A29180), (1, 0x00005050)] [] [] = true := by decide +kernel

/-- 95_test_vectors.md line 105. -/
theorem test_strb_pre_writeback : gives (start 0x00008000 0x00000010 [(6, 0x00007070), (7, 0x00008080)] [] [(0x0000706C, 0x00000000)] 0xE5667001)
    0x00008004 0x00000010 [(6, 0x0000706F)] [] [(0x0000706C, 0x80000000)] = true := by decide +kernel

/-- 95_test_vectors.md line 121. -/
theorem test_ldrsb_pre_writeback : gives (start 0x00008000 0x00000010 [(6, 0x00007070)] [] [(0x0000706C, 0x7F000000)] 0xE17670D1)
    0x00008004 0x00000010 [(6, 0x0000706F), (7, 0x0000007F)] [] [] = true := by decide +kernel

/-- 95_test_vectors.md line 115. -/
theorem test_ldrsh : gives (start 0x00008000 0x00000010 [(9, 0x0000A0A0)] [] [(0x0000A0A0, 0xB3A29180)] 0xE1D950F0)
    0x00008004 0x00000010 [(5, 0xFFFF9180)] [] [] = true := by decide +kernel

/-- 95_test_vectors.md line 123. -/
theorem test_strh_post : gives (start 0x00008000 0x00000010 [(2, 0x00003030), (5, 0x00006060)] [] [(0x00006060, 0x11111111)] 0xE0C520B8)
    0x00008004 0x00000010 [(5, 0x00006068)] [] [(0x00006060, 0x11113030)] = true := by decide +kernel

/-- 95_test_vectors.md line 124. -/
theorem test_ldrd : gives (start 0x00008000 0x00000010 [(9, 0x0000A0A0)] [] [(0x0000A0A0, 0xB3A29180), (0x0000A0A4, 0xF7E6D5C4)] 0xE1C940D0)
    0x00008004 0x00000010 [(4, 0xB3A29180), (5, 0xF7E6D5C4)] [] [] = true := by decide +kernel

/-- 95_test_vectors.md line 126. -/
theorem test_strd : gives (start 0x00008000 0x00000010 [(2, 0x00003034), (8, 0x00009090), (9, 0x0000A0A0)] [] [] 0xE1C282FC)
    0x00008004 0x00000010 [] [] [(0x00003060, 0x00009090), (0x00003064, 0x0000A0A0)] = true := by decide +kernel

/-- 95_test_vectors.md line 139. -/
theorem test_stmda : gives (start 0x00008000 0x00000010 [(1, 0x00002020), (2, 0x00003030), (5, 0x00006060), (7, 0x00008080), (8, 0x00009090), (9, 0x0000A0A0), (11, 0x0000C0C0)] [] [] 0xE8210BA4)
    0x00008004 0x00000010 [(1, 0x00002008)] [] [(0x0000200C, 0x00003030), (0x00002010, 0x00006060), (0x00002014, 0x00008080), (0x00002018, 0x00009090), (0x0000201C, 0x0000A0A0), (0x00002020, 0x0000C0C0)] = true := by decide +kernel

/-- 95_test_vectors.md line 151. -/
theorem test_swp_same_register : gives (start 0x00008000 0x00000010 [(1, 0x00002020), (2, 0x00003030)] [] [(0x00003030, 0xB3A29180)] 0xE1021091)
    0x00008004 0x00000010 [(1, 0xB3A29180)] [] [(0x00003030, 0x00002020)] = true := by decide +kernel

/-- 96_test_vectors_2.md line 16. -/
theorem test_ldr_big_endian : gives (start 0x00008000 0x00000210 [(1, 0x00003000)] [] bytes3000 0xE5910000)
    0x00008004 0x00000210 [(0, 0x11223344)] [] [] = true := by decide +kernel

/-- 96_test_vectors_2.md line 18. -/
theorem test_ldrh_big_endian : gives (start 0x00008000 0x00000210 [(1, 0x00003000)] [] bytes3000 0xE1D100B0)
    0x00008004 0x00000210 [(0, 0x00001122)] [] [] = true := by decide +kernel

/-- 96_test_vectors_2.md line 40. -/
theorem test_str_big_endian : gives (start 0x00008000 0x00000210 [(0, 0xAABBCCDD), (1, 0x00003000)] [] bytes3000 0xE5810000)
    0x00008004 0x00000210 [] [] [(0x00003000, 0xDDCCBBAA)] = true := by decide +kernel

/-- 96_test_vectors_2.md line 58. -/
theorem test_ldr_rrx_index : gives (start 0x00008000 0x20000010 [(1, 0x80003000), (2, 0x00000010)] [] bytes3000 0xE7910062)
    0x00008004 0x20000010 [(0, 0x80FF7F01)] [] [] = true := by decide +kernel

/-- 96_test_vectors_2.md line 81. -/
theorem test_ldrd_odd_undefined : gives (start 0x00008000 0x00000010 [(1, 0x00003000)] [] bytes3000 0xE1C150D0)
    0x00000004 0x0000009B [(25, 0x00008004)] [(2, 0x00000010)] [] = true := by decide +kernel

/-- 96_test_vectors_2.md line 98. -/
theorem test_ldrt : gives (start 0x00008000 0x00000013 [(1, 0x00003000)] [] bytes3000 0xE4B10004)
    0x00008004 0x00000013 [(0, 0x44332211), (1, 0x00003004)] [] [] = true := by decide +kernel

/-- 96_test_vectors_2.md line 101. -/
theorem test_strbt : gives (start 0x00008000 0x00000013 [(0, 0xAABBCCDD), (1, 0x00003000), (2, 0x00000010)] [] bytes3000 0xE6E10002)
    0x00008004 0x00000013 [(1, 0x00003010)] [] [(0x00003000, 0x443322DD)] = true := by decide +kernel

/-- 96_test_vectors_2.md line 112. -/
theorem test_strex_without_ldrex : gives (start 0x00008000 0x00000010 [(0, 0x00003000), (1, 0x00000055), (3, 0x00003800)] [] bytes3000 0xE1802F91)
    0x00008004 0x00000010 [(2, 0x00000001)] [] [] = true := by decide +kernel

/-- 96_test_vectors_2.md line 147. -/
theorem test_ldm_pc : gives (start 0x00008000 0x00000010 [(18, 0x00003000)] [] [(0x00003000, 0x00000044), (0x00003004, 0x00009001)] 0xE8BD8010)
    0x00009000 0x00000030 [(4, 0x00000044), (18, 0x00003008)] [] [] = true := by decide +kernel

/-- 96_test_vectors_2.md line 151. -/
theorem test_stm_user_bank : gives (start 0x00008000 0x00000092 [(26, 0x00003000), (18, 0x00007000), (19, 0x00007004), (27, 0x00001234)] [] [] 0xE8CD6000)
    0x00008004 0x00000092 [] [] [(0x00003000, 0x00007000), (0x00003004, 0x00007004)] = true := by decide +kernel

/-- 96_test_vectors_2.md line 152. -/
theorem test_ldm_user_bank : gives (start 0x00008000 0x00000013 [(20, 0x00003000), (21, 0x00001234)] [] [(0x00003000, 0x0000D000), (0x00003004, 0x0000D004)] 0xE8DD6000)
    0x00008004 0x00000013 [(18, 0x0000D000), (19, 0x0000D004)] [] [] = true := by decide +kernel

/-- 96_test_vectors_2.md line 155. -/
theorem test_ldm_user_bank_in_user_mode :
    faults (start 0x00008000 0x00000010 [(18, 0x00003000)] [] bytes3000 0xE8DD6000) .modeForbidden = true := by decide +kernel

/-- 96_test_vectors_2.md line 157. -/
theorem test_ldm_returns : gives (start 0x00008000 0x00000092 [(26, 0x00003000)] [(3, 0x60000010)] [(0x00003000, 0x0000000A), (0x00003004, 0x0000000B), (0x00003008, 0x00008123)] 0xE8FD8003)
    0x00008120 0x60000010 [(0, 0x0000000A), (1, 0x0000000B), (26, 0x0000300C)] [] [] = true := by decide +kernel

/-- 96_test_vectors_2.md line 168. -/
theorem test_rfe : gives (start 0x00008000 0x00000093 [(20, 0x00003000)] [] [(0x00003000, 0x00008127), (0x00003004, 0x00000030)] 0xF8BD0A00)
    0x00008126 0x00000030 [(20, 0x00003008)] [] [] = true := by decide +kernel

/-- 96_test_vectors_2.md line 169. -/
theorem test_rfe_bad_mode :
    faults (start 0x00008000 0x00000093 [(20, 0x00003000)] [] [(0x00003000, 0x00008124), (0x00003004, 0x00000000)] 0xF8BD0A00) .illegalMode = true := by decide +kernel

/-- 96_test_vectors_2.md line 172. -/
theorem test_srs : gives (start 0x00008000 0x00000092 [(27, 0x00008128), (20, 0x00003008), (26, 0x00005000)] [(3, 0x60000010)] [] 0xF96D0513)
    0x00008004 0x00000092 [(20, 0x00003000)] [] [(0x00003000, 0x00008128), (0x00003004, 0x60000010)] = true := by decide +kernel

/-- 96_test_vectors_2.md line 186. -/
theorem test_swpb_big_endian : gives (start 0x00008000 0x00000210 [(3, 0xAABBCCDD), (1, 0x00003003)] [] bytes3000 0xE1412093)
    0x00008004 0x00000210 [(2, 0x00000044)] [] [(0x00003000, 0xDD332211)] = true := by decide +kernel

/-- 96_test_vectors_2.md line 200. -/
theorem test_undefined_word : gives (start 0x00008000 0x00000010 [] [] [] 0xE0500090)
    0x00000004 0x0000009B [(25, 0x00008004)] [(2, 0x00000010)] [] = true := by decide +kernel

/-- 96_test_vectors_2.md line 198. -/
theorem test_architecturally_undefined : gives (start 0x00008000 0x600002D1 [] [] [] 0xE7F000F0)
    0x00000004 0x600000DB [(25, 0x00008004)] [(2, 0x600002D1)] [] = true := by decide +kernel

/-- 96_test_vectors_2.md line 202. -/
theorem test_absent_coprocessor : gives (start 0x00008000 0x00000010 [] [] [] 0xEE000000)
    0x00000004 0x0000009B [(25, 0x00008004)] [(2, 0x00000010)] [] = true := by decide +kernel

/-- 96_test_vectors_2.md line 241. -/
theorem test_cps : gives (start 0x00008000 0x60000192 [] [] [] 0xF1020013)
    0x00008004 0x60000193 [] [] [] = true := by decide +kernel

/-- 95_test_vectors.md line 68. -/
theorem test_msr_control : gives (start 0x00008000 0xA0000013 [(0, 0xA0000093)] [] [] 0xE121F000)
    0x00008004 0xA0000093 [] [] [] = true := by decide +kernel


/-! ### Witnesses: for each statement with hypotheses, a state and operands that meet them, at the edge of their range -/

/-- A state near the end of the address space: the last instruction that another can follow, every register at the last
doubleword, whose words are 0x03020100 and 0x00000010, every SPSR that of User mode; coprocessor 1 accepts what it is
offered and transfers two words, coprocessor 2 accepts the words whose bits 31 to 28 are 0b1110, with privilege. -/
def edge (cpsr : Word) : State :=
  { State.reset with
    pc := 0xFFFFFFF8
    cpsr := cpsr
    gpr := Vector.replicate 30 0xFFFFFFF8
    spsr := Vector.replicate 5 0x10
    mem := Memory.writeBytes [] 0xFFFFFFF8 [0x00, 0x01, 0x02, 0x03, 0x10, 0x00, 0x00, 0x00]
    coprocs := (State.reset.coprocs.set 1
        (some ⟨[], [⟨⟨0, 0, none⟩, .user⟩, ⟨⟨0, 0, none⟩, .privileged⟩], [], ⟨1, 2, 1, [3]⟩⟩)).set 2
      (some ⟨[], [⟨⟨0xF0000000, 0xE0000000, none⟩, .privileged⟩], [], ⟨1, 2, 1, [3]⟩⟩) }

/-- That state in Supervisor mode. -/
abbrev svcEdge : State := edge 0x00000013
/-- That state in User mode. -/
abbrev userEdge : State := edge 0x00000010

/-- The Supervisor-mode state with every register holding `v`. -/
def svcAt (v : Word) : State := { svcEdge with gpr := Vector.replicate 30 v }
/-- The Supervisor-mode state where the last word of the address space aborts. -/
def abortEdge : State :=
  { svcEdge with platform := { Platform.default with
      aborting := [⟨0xFFFFFFFC, 0xFFFFFFFC, 4, .read⟩, ⟨0xFFFFFFFC, 0xFFFFFFFC, 4, .write⟩] } }
/-- The Supervisor-mode state where only writes at the registers' address abort. -/
def writeAbortEdge : State :=
  { svcEdge with platform := { Platform.default with
      aborting := [⟨0xFFFFFFF8, 0xFFFFFFF8, 4, .write⟩, ⟨0xFFFFFFF8, 0xFFFFFFF8, 1, .write⟩] } }

/-- A single access that crosses from 0xFFFFFFFF to 0 faults, and does not abort (20_memory.md R83). -/
theorem test_ldr_crosses_top :
    exec (.ldrImm .al .offset true 14 0 6) svcEdge = .fault .addressWrap ∧
    exec (.strhImm .al .offset true 14 0 7) svcEdge = .fault .addressWrap ∧
    exec (.ldrdImm .al .offset true 14 0 4) svcEdge = .fault .addressWrap ∧
    exec (.ldrImm .al .offset true 14 0 1) svcEdge = .next (takeException .dataAbort svcEdge) :=
  ⟨rfl, rfl, rfl, rfl⟩

/-- An aborted LDM (2) in Supervisor mode: R13_usr, loaded, is unknown; the base register R13_svc and R14_usr, not loaded,
keep their values (60_exceptions.md R549). -/
theorem test_aborted_ldm_user_bank :
    ∃ t, exec (.ldm2 .al .ia 13 0x6000) abortEdge = .next t ∧ t.gpr.get 18 = Config.freeWord 0 ∧
      t.gpr.get 19 = 0xFFFFFFF8 ∧ t.gpr.get 20 = 0xFFFFFFF8 := ⟨_, rfl, rfl, rfl, rfl⟩

/-- An LDRD with an odd Rd, P = 0 and W = 1 is UNPREDICTABLE at decode (notes/assumptions/27.md). -/
theorem test_ldrd_odd_with_w : decodeWord 0xE0E110D0 = .unpredictable := by decide +kernel

/-- A coprocessor may accept CDP and reject CDP2 (49_exception_coprocessor.md R530), and rejects a word again where it
rejected it in the same state (R510). -/
theorem test_cdp_accepted_cdp2_rejected :
    exec (.cdp .al 0 0 0 2 0 0) svcEdge = .next (svcEdge.cpDone 2 0xEE000200 []).afterNothing ∧
    exec (.cdp2 0 0 0 2 0 0) svcEdge = .next (takeException .undefinedInstruction svcEdge) ∧
    (takeException .undefinedInstruction svcEdge).cpReply 2 (encode (.cdp2 0 0 0 2 0 0)) = none :=
  ⟨rfl, rfl, rfl⟩

/-- The outcome is a next state. -/
def isNext (o : Out) : Bool :=
  match o with
  | .next _ => true
  | .fault _ => false
  | .refused _ => false

theorem exists_next {o : Out} (h : isNext o = true) : ∃ t, o = .next t := by
  cases o with
  | next t => exact ⟨t, rfl⟩
  | fault f => cases h
  | refused f => cases h

theorem witness_runs : Runs .al svcEdge := ⟨rfl, by decide⟩

theorem witness_DecodeOfEncode :
    (Instr.smlad .al 14 14 14 true 14).wf = true ∧ (Instr.ldc .al false false true true 0 0 0 0).wf = true := by decide

theorem witness_EncodeOfDecode : decodeWord 0xE1A00000 = .instr (.movShift .al false 0 0 .lsl 0) := by decide +kernel

theorem witness_RowsAreDisjoint : ∃ a b, table[202]? = some a ∧ table[202]? = some b ∧
    a.accepts 0xFC500000 = true ∧ b.accepts 0xFC500000 = true :=
  ⟨_, _, rfl, rfl, by decide, by decide⟩

theorem witness_FailedConditionIsNop :
    (condOf (.movImm .eq true 15 0 0) = some .eq ∧ conditionPassed .eq svcEdge = false ∧
      svcEdge.pc.toNat + 4 < 2 ^ 32 ∧ 2 ^ 32 ≤ { svcEdge with pc := 0xFFFFFFFC }.pc.toNat + 4) ∧
    (let s := start 0xFFFFFFF8 0x13 [] [] [] 0x03A00001;
      s.interrupt = none ∧ s.t = false ∧ s.j = false ∧ s.fetches 0x03A00001 ∧
        field (0x03A00001 : Word) 28 4 ≠ 0b1111 ∧
        conditionPassed (Cond.ofCode (field (0x03A00001 : Word) 28 4)) s = false ∧ s.pc.toNat + 4 < 2 ^ 32) ∧
    (let s := start 0xFFFFFFFC 0x13 [] [] [] 0x03A00001;
      s.interrupt = none ∧ s.t = false ∧ s.j = false ∧ s.fetches 0x03A00001 ∧
        conditionPassed (Cond.ofCode (field (0x03A00001 : Word) 28 4)) s = false ∧ 2 ^ 32 ≤ s.pc.toNat + 4) ∧
    (let s := { svcEdge with platform := { Platform.default with aborting := [⟨0xFFFFFFF8, 0xFFFFFFF8, 4, .fetch⟩] } };
      s.interrupt = none ∧ s.t = false ∧ s.j = false ∧ memAborts s.platform s.pc.toNat 4 .fetch = true) ∧
    (let s := { svcEdge with
        platform := { Platform.default with forbidden := [⟨0xFFFFFFF8, 0xFFFFFFF8, 4, .fetch, .privileged⟩] } };
      s.interrupt = none ∧ s.t = false ∧ s.j = false ∧ memPermitted s.platform s.pc.toNat 4 .fetch s.privilege = false) ∧
    { svcEdge with lines := [⟨true, false⟩] }.interrupt = some .irq ∧
    { svcEdge with lines := [⟨true, true⟩] }.interrupt = some .fiq := by
  simp only [State.fetches, State.fetchAllowed]
  decide +kernel

theorem witness_StepRunsDecoded :
    let s := { start 0xFFFFFFFC 0xD3 [] [] [] 0xE1A00000 with lines := [⟨true, true⟩] }
    (s.linesNow.fiq = false ∨ s.f = true) ∧ (s.linesNow.irq = false ∨ s.i = true) ∧ s.t = false ∧ s.j = false ∧
      memPermitted s.platform s.pc.toNat 4 .fetch s.privilege = true ∧
      memAborts s.platform s.pc.toNat 4 .fetch = false ∧ (∀ k < 4, s.pc.toNat + k ∉ s.written) ∧
      s.mem.read s.pc.toNat = some 0x00 ∧ s.mem.read (s.pc.toNat + 1) = some 0x00 ∧
      s.mem.read (s.pc.toNat + 2) = some 0xA0 ∧ s.mem.read (s.pc.toNat + 3) = some 0xE1 ∧
      decodeBytes 0x00 0x00 0xA0 0xE1 = .instr (.movShift .al false 0 0 .lsl 0) := by decide +kernel

theorem witness_InterruptsAreTaken :
    (let s := { svcEdge with lines := [⟨true, true⟩] };
      s.linesNow.fiq = true ∧ s.f = false) ∧
    (let s := { edge 0x53 with lines := [⟨true, true⟩] };
      s.linesNow.irq = true ∧ s.i = false ∧ (s.linesNow.fiq = false ∨ s.f = true)) ∧
    (let s := { edge 0xD3 with lines := [⟨true, true⟩] };
      (s.linesNow.fiq = false ∨ s.f = true) ∧ (s.linesNow.irq = false ∨ s.i = true)) ∧
    (svcEdge.linesNow.fiq = false ∧ svcEdge.linesNow.irq = false) := by decide

theorem witness_StepsWithoutInstruction :
    (let s := start 0xFFFFFFFC 0x13 [] [] [] 0xE3000000;
      s.interrupt = none ∧ s.t = false ∧ s.j = false ∧ s.fetches 0xE3000000 ∧
        conditionPassed (Cond.ofCode (field (0xE3000000 : Word) 28 4)) s = true ∧ decodeWord 0xE3000000 = .undefined) ∧
    (let s := start 0xFFFFFFFC 0x13 [] [] [] 0xF1010010;
      s.interrupt = none ∧ s.t = false ∧ s.j = false ∧ s.fetches 0xF1010010 ∧
        field (0xF1010010 : Word) 28 4 = 0b1111 ∧ decodeWord 0xF1010010 = .unpredictable) ∧
    ((edge 0x33).interrupt = none ∧ (edge 0x33).t = true) ∧
    ((edge 0x01000013).interrupt = none ∧ (edge 0x01000013).t = false ∧ (edge 0x01000013).j = true) ∧
    (let s := { svcEdge with written := [0xFFFFFFFB] };
      s.interrupt = none ∧ s.t = false ∧ s.j = false ∧ s.fetchAllowed ∧ ∃ k < 4, s.pc.toNat + k ∈ s.written) ∧
    (let s := { svcEdge with pc := 0xFFFFFFF4, written := [0xFFFFFFF8] };
      s.interrupt = none ∧ s.t = false ∧ s.j = false ∧ s.fetchAllowed ∧ (∀ k < 4, s.pc.toNat + k ∉ s.written) ∧
        ∃ k < 4, s.mem.read (s.pc.toNat + k) = none) := by
  simp only [State.fetches, State.fetchAllowed]
  decide +kernel

theorem witness_StepKeepsLegalState :
    let s := start 0xFFFFFFF8 0x13 [] [] [] 0xE1A00000
    s.Inv ∧ ∃ t, step s = .next t :=
  ⟨⟨by decide +kernel, by decide, fun a h => (List.not_mem_nil h).elim, by decide, by decide, by decide, by decide⟩,
    exists_next (by decide +kernel)⟩

theorem witness_UserModeIsLeftByExceptionsOnly :
    modeBits userEdge.cpsr = 0b10000 ∧ ∃ t, exec (.msrImm .al false 15 0 0xD3) userEdge = .next t :=
  ⟨by decide, exists_next (by decide +kernel)⟩

theorem witness_QIsSticky :
    (edge 0x08000013).q = true ∧
    (psrBits (.mul .al true 0 1 2) &&& 0x08000000 = 0 ∧ ∃ t, exec (.mul .al true 0 1 2) (edge 0x08000013) = .next t) ∧
    (psrBits (.qadd .al 0 1 2) = 0x08000000 ∧ ∃ t, exec (.qadd .al 0 1 2) (edge 0x08000013) = .next t) :=
  ⟨by decide, ⟨by decide, exists_next (by decide +kernel)⟩, by decide, exists_next (by decide +kernel)⟩

theorem witness_StatusRegisterFrame : ∃ t, exec (.setend true) svcEdge = .next t := exists_next (by decide +kernel)

theorem witness_RegisterFrame :
    (29 : Fin 30) ∉ destCells (.bl .al 0) svcEdge ∧ ∃ t, exec (.bl .al 0) svcEdge = .next t :=
  ⟨by decide, exists_next (by decide +kernel)⟩

theorem witness_MemoryFrame :
    (storeSpan (.ldrImm .al .offset true 0 1 0) svcEdge = none ∧
      ∃ t, exec (.ldrImm .al .offset true 0 1 0) svcEdge = .next t) ∧
    (storeSpan (.strImm .al .offset true 0 1 4) svcEdge = some (0xFFFFFFFC, 4) ∧
      (0xFFFFFFFB < 0xFFFFFFFC ∨ 0xFFFFFFFC + 4 ≤ 0xFFFFFFFB) ∧
      ∃ t, exec (.strImm .al .offset true 0 1 4) svcEdge = .next t) :=
  ⟨⟨rfl, exists_next (by decide +kernel)⟩, by decide, by decide, exists_next (by decide +kernel)⟩

theorem witness_SpecialStateFrame :
    cpOf (.cdp .al 0 0 0 1 0 0) = some 1 ∧ cpIndex 1 ≠ 15 ∧ ∃ t, exec (.cdp .al 0 0 0 1 0 0) svcEdge = .next t :=
  ⟨rfl, by decide, exists_next (by decide +kernel)⟩

theorem witness_RegisterBanks : (0 : Reg) ≠ 15 ∧ (14 : Reg) ≠ 15 := by decide

theorem witness_StoredBytesReadBack :
    4 ≤ 4 ∧ 3 < 4 ∧ (0xFFFFFFFB < 0xFFFFFFFC ∨ 0xFFFFFFFC + 4 ≤ 0xFFFFFFFB) ∧
      (2 ^ 32 < 0xFFFFFFFC ∨ 0xFFFFFFFC + 4 ≤ 2 ^ 32) := by decide

theorem witness_ExceptionEntry :
    (28 : Fin 30) ≠ cell ExceptionKind.fiq.mode 14 ∧ ExceptionKind.fiq.mode.spsrIndex ≠ some 3 := by decide

theorem witness_ShiftByImmediate :
    (0 : BitVec 5).toNat = 0 ∧ (1 : BitVec 5).toNat ≠ 0 ∧ (31 : BitVec 5).toNat ≠ 0 := by decide

theorem witness_ShiftByRegister : 0 < 256 ∧ (1 < 256 ∧ 1 ≠ 0) ∧ (255 < 256 ∧ 255 ≠ 0) := by decide

theorem witness_LogicalResults : Runs .al svcEdge ∧ (14 : Reg) ≠ 15 ∧
    (Operand2.reg 14 .lsl 14).allows [14, 14] = true ∧ (Operand2.shift 31 .ror 15).allows [15, 14] = true ∧
    (Operand2.imm 15 255).allows [14] = true := ⟨witness_runs, by decide⟩

theorem witness_ArithmeticResults : Runs .al svcEdge ∧ (14 : Reg) ≠ 15 ∧
    (Operand2.reg 14 .lsl 14).allows [14, 14] = true ∧ (Operand2.shift 31 .ror 15).allows [15, 14] = true :=
  ⟨witness_runs, by decide⟩

theorem witness_CompareResults : Runs .al svcEdge ∧ (Operand2.reg 14 .lsl 14).allows [14] = true ∧
    (Operand2.imm 15 255).allows [15] = true := ⟨witness_runs, by decide⟩

theorem witness_DataProcessingToPcBranches :
    DpOp.mvn ∉ [DpOp.tst, .teq, .cmp, .cmn] ∧ Runs .al svcEdge ∧ (∀ rs ty rm, Operand2.imm 15 255 ≠ .reg rs ty rm) ∧
      ∃ t, exec (dpForm .mvn (.imm 15 255) .al false 15 0) svcEdge = .next t :=
  ⟨by decide, witness_runs, fun _ _ _ h => (nomatch h), exists_next (by decide +kernel)⟩

theorem witness_DataProcessingReturns :
    (DpOp.mvn ∉ [DpOp.tst, .teq, .cmp, .cmn] ∧ Runs .al svcEdge ∧ (∀ rs ty rm, Operand2.imm 15 255 ≠ .reg rs ty rm) ∧
      ∃ t, exec (dpForm .mvn (.imm 15 255) .al false 15 0) svcEdge = .next t) ∧
    (svcEdge.spsr? = some 0x10 ∧ legalMode 0x10 = true) ∧
    ({ svcEdge with spsr := Vector.replicate 5 0 }.spsr? = some 0 ∧ legalMode 0 = false) ∧
    (edge 0x1F).spsr? = none ∧ Runs .al (edge 0x1F) ∧
    ∃ t, exec (dpForm .mvn (.imm 15 255) .al false 15 0) (edge 0x1F) = .next t :=
  ⟨witness_DataProcessingToPcBranches, by decide, by decide, by decide, ⟨rfl, by decide⟩,
    exists_next (by decide +kernel)⟩

theorem witness_MultiplyResults : Runs .al svcEdge ∧ (14 : Reg) ≠ 15 ∧ (0 : Reg) ≠ 15 := ⟨witness_runs, by decide⟩

theorem witness_LongMultiplyResults : Runs .al svcEdge ∧ (14 : Reg) ≠ 15 ∧ (0 : Reg) ≠ 15 ∧ (14 : Reg) ≠ 0 :=
  ⟨witness_runs, by decide⟩

theorem witness_HalfwordMultiplyResults : Runs .al svcEdge ∧ (14 : Reg) ≠ 15 ∧ (0 : Reg) ≠ 15 ∧ (0 : Reg) ≠ 14 :=
  ⟨witness_runs, by decide⟩

theorem witness_DualMultiplyResults : Runs .al svcEdge ∧ (14 : Reg) ≠ 15 ∧ (0 : Reg) ≠ 15 ∧ (0 : Reg) ≠ 14 :=
  ⟨witness_runs, by decide⟩

theorem witness_TopWordMultiplyResults : Runs .al svcEdge ∧ (14 : Reg) ≠ 15 ∧ (0 : Reg) ≠ 15 := ⟨witness_runs, by decide⟩

theorem witness_ParallelResults : Runs .al svcEdge ∧ (14 : Reg) ≠ 15 ∧ (0 : Reg) ≠ 15 := ⟨witness_runs, by decide⟩

theorem witness_ExtendResults : Runs .al svcEdge ∧ (14 : Reg) ≠ 15 ∧ (0 : Reg) ≠ 15 := ⟨witness_runs, by decide⟩

theorem witness_MiscellaneousResults : Runs .al svcEdge ∧ (14 : Reg) ≠ 15 ∧ (0 : Reg) ≠ 15 := ⟨witness_runs, by decide⟩

theorem witness_SaturateResults : Runs .al svcEdge ∧ (14 : Reg) ≠ 15 ∧ (0 : Reg) ≠ 15 := ⟨witness_runs, by decide⟩

theorem witness_SaturatingAddResults : Runs .al svcEdge ∧ (14 : Reg) ≠ 15 ∧ (0 : Reg) ≠ 15 := ⟨witness_runs, by decide⟩

theorem witness_ForbiddenRegistersFault :
    conditionPassed .al svcEdge = true ∧
    ((∀ c', condOf (.mul .al false 0 15 1) = some c' → conditionPassed c' svcEdge = true) ∧
      (15 : Reg) ∈ noPcFields (.mul .al false 0 15 1)) ∧
    ((14 : Reg) ≠ 15 ∧ (0 : Reg) ≠ 15) ∧
    ((∀ i t, Offset.reg 31 .ror 14 ≠ .reg i t 15) ∧ writesBack (Transfer.ldrt.index .offset) = true ∧
      writesBack (Transfer.ldr.index .pre) = true) ∧
    ((12 : Reg).getLsbD 0 = false ∧ (12 : Reg) ≠ 14 ∧ writesBack .post = true ∧ (13 : Reg) = 12 + 1 ∧
      writesBack .offset = false) ∧
    (conditionPassed .al { svcEdge with pc := 0xFFFFFFFC } = true ∧
      2 ^ 32 ≤ { svcEdge with pc := 0xFFFFFFFC }.pc.toNat + 4 ∧ (Operand2.reg 14 .lsl 14).allows [14, 14] = true) :=
  ⟨rfl, ⟨fun _ h => by cases h; rfl, by decide⟩, by decide, ⟨fun _ _ h => (nomatch h), rfl, rfl⟩, by decide, by decide⟩

theorem witness_MrsResults : Runs .al svcEdge ∧ (14 : Reg) ≠ 15 ∧ svcEdge.spsr? = some 0x10 ∧
    Runs .al userEdge ∧ userEdge.spsr? = none := ⟨witness_runs, by decide, by decide, ⟨rfl, by decide⟩, by decide⟩

theorem witness_MsrResults :
    (Runs .al svcEdge ∧ Runs .al userEdge ∧ (14 : Reg) ≠ 15) ∧
    (svcEdge.reg 14 &&& 0x06F0FC00 ≠ 0) ∧
    (let v : Word := (0xFF : BitVec 8).setWidth 32;
      v &&& 0x06F0FC00 = 0 ∧ v &&& 0x01000020 ≠ 0 ∧ modeBits userEdge.cpsr = 0b10000 ∧ svcEdge.privileged = true) ∧
    (let v : Word := (0xDF : BitVec 8).setWidth 32;
      v &&& 0x06F0FC00 = 0 ∧ v &&& 0x01000020 = 0 ∧
        legalMode ((svcEdge.cpsr &&& ~~~0xDF) ||| (v &&& 0xDF)) = true) ∧
    (let v : Word := (0xC0 : BitVec 8).setWidth 32;
      v &&& 0x06F0FC00 = 0 ∧ v &&& 0x01000020 = 0 ∧
        legalMode ((svcEdge.cpsr &&& ~~~0xDF) ||| (v &&& 0xDF)) = false) ∧
    svcEdge.mode.spsrIndex = some 0 ∧ userEdge.mode.spsrIndex = none :=
  ⟨⟨witness_runs, ⟨rfl, by decide⟩, by decide⟩, by decide⟩

theorem witness_CpsAndSetendResults :
    svcEdge.pc.toNat + 4 < 2 ^ 32 ∧ svcEdge.privileged = true ∧ userEdge.privileged = false ∧
    modeOfNumber 0b00000 = none ∧ (modeOfNumber 0b11111).isSome = true ∧
    ¬((3 : BitVec 2) = 1 ∨ ((3 : BitVec 2) = 0 ∧ (true = false ∨ true = true ∨ true = true ∨ true = true)) ∨
      (2 ≤ (3 : BitVec 2).toNat ∧ true = false ∧ true = false ∧ true = false) ∨
      (true = false ∧ (0b11111 : BitVec 5) ≠ 0)) := by decide

theorem witness_BranchResults :
    conditionPassed .al svcEdge = true ∧
    (0 ≤ (svcEdge.pc.toNat : Int) + 8 + 4 * (0xFFFFFF : BitVec 24).toInt ∧
      (svcEdge.pc.toNat : Int) + 8 + 4 * (0xFFFFFF : BitVec 24).toInt < 2 ^ 32) ∧
    2 ^ 32 ≤ (svcEdge.pc.toNat : Int) + 8 + 4 * (0 : BitVec 24).toInt ∧
    ({ svcEdge with pc := 0 }.pc.toNat : Int) + 8 + 4 * (0xFFFFFD : BitVec 24).toInt < 0 := by decide

theorem witness_BranchExchangeResults :
    conditionPassed .al svcEdge = true ∧ (svcEdge.reg 14 &&& 3 ≠ 2 ∧ (14 : Reg) ≠ 15 ∧
      svcEdge.platform.jazellePresent = false) ∧
    (let s := { svcEdge with gpr := Vector.replicate 30 0xFFFFFFFE };
      s.reg 14 &&& 3 = 2 ∧ s.platform.jazellePresent = false) ∧
    { svcEdge with platform := { Platform.default with jazellePresent := true } }.platform.jazellePresent = true := by
  decide

theorem witness_LoadResults :
    Transfer.ldrsh.stores = false ∧ Runs .al svcEdge ∧ Transfer.ldrsh.allows (.imm 0) .post 14 0 = true ∧ (0 : Reg) ≠ 15 ∧
      svcEdge.readable (Transfer.ldrsh.priv svcEdge) Transfer.ldrsh.bytes
        (Transfer.ldrsh.address (.imm 0) .post true 14 svcEdge) 0x0100 := by
  refine ⟨rfl, witness_runs, by decide, by decide, ?_⟩
  simp only [State.readable, State.reachable]
  decide +kernel

theorem witness_LoadToPcBranches :
    (conditionPassed .al svcEdge = true ∧ Transfer.ldr.allows (.imm 4) .pre 14 15 = true ∧
      svcEdge.readable svcEdge.privilege 4 (Transfer.ldr.address (.imm 4) .pre true 14 svcEdge) 0x10 ∧
      (0x10 : Word) &&& 3 ≠ 2) ∧
    (let s := { svcEdge with mem := svcEdge.mem.writeBytes 0xFFFFFFFC [0x02] };
      s.readable s.privilege 4 (Transfer.ldr.address (.imm 4) .pre true 14 s) 2 ∧ (2 : Word) &&& 3 = 2) := by
  simp only [State.readable, State.reachable]
  decide +kernel

theorem witness_StoreResults :
    Transfer.strbt.stores = true ∧ Runs .al svcEdge ∧ Transfer.strbt.allows (.imm 4) .offset 14 0 = true ∧
      svcEdge.writable (Transfer.strbt.priv svcEdge) 1 (Transfer.strbt.address (.imm 4) .offset true 14 svcEdge) ∧
      Transfer.str.allows (.reg 31 .ror 14) .pre 14 15 = true := by
  refine ⟨rfl, witness_runs, by decide, ?_, by decide⟩
  simp only [State.writable, State.reachable]
  decide +kernel

/-- The second of two words from the registers' address aborts. -/
theorem abortEdge_abortsAt {k : AccessKind} (h : k = .read ∨ k = .write) : abortEdge.abortsAt k 0xFFFFFFF8 2 1 := by
  refine ⟨by decide, by decide, ?_, fun j hj => ?_⟩
  · rcases h with rfl | rfl <;> exact fun h => absurd h.2.2.2 (by decide +kernel)
  · obtain rfl : j = 0 := by omega
    refine ⟨?_, fun _ => ⟨0x03020100, ?_⟩⟩
    · rcases h with rfl | rfl <;> (simp only [State.reachable]; decide +kernel)
    · simp only [State.readable, State.reachable]; decide +kernel

theorem witness_AbortedTransfers_one :
    conditionPassed .al svcEdge = true ∧ conditionPassed .al abortEdge = true ∧
    (Transfer.ldr.allows (.imm 6) .offset 14 0 = true ∧
      2 ^ 32 < (Transfer.ldr.address (.imm 6) .offset true 14 svcEdge).toNat + 4) ∧
    (Transfer.str.allows (.imm 4) .offset 14 15 = true ∧
      (Transfer.str.address (.imm 4) .offset true 14 abortEdge).toNat + 4 ≤ 2 ^ 32 ∧
      ¬abortEdge.reachable (Transfer.str.priv abortEdge) .write 4 (Transfer.str.address (.imm 4) .offset true 14 abortEdge)) ∧
    (let s := { abortEdge with gpr := Vector.replicate 30 0xFFFFFFFC, monitor := some 0xFFFFFFF8 };
      (14 : Reg) ≠ 15 ∧ (0 : Reg) ≠ 15 ∧ (1 : Reg) ≠ 15 ∧ (0 : Reg) ≠ 14 ∧ (0 : Reg) ≠ 1 ∧ (14 : Reg) ≠ 1 ∧
      (s.reg 14).toNat + 4 ≤ 2 ^ 32 ∧ ¬s.reachable s.privilege .read 4 (s.reg 14) ∧
      s.monitor = some (BitVec.ofNat 32 ((s.reg 14).toNat / 2 ^ 3 * 2 ^ 3)) ∧
      ¬s.reachable s.privilege .write 4 (s.reg 14)) ∧
    (2 ^ 32 < ((svcAt 0xFFFFFFFE).reg 14).toNat + 4) ∧
    (((svcAt 0xFFFFFFFA).reg 14).toNat + 4 ≤ 2 ^ 32 ∧ ((svcAt 0xFFFFFFFA).reg 14).toNat % 4 ≠ 0) ∧
    (writeAbortEdge.readable writeAbortEdge.privilege 4 (writeAbortEdge.reg 14) 0x03020100 ∧
      ¬writeAbortEdge.reachable writeAbortEdge.privilege .write 4 (writeAbortEdge.reg 14) ∧
      writeAbortEdge.readable writeAbortEdge.privilege 1 (writeAbortEdge.reg 14) 0x00 ∧
      ¬writeAbortEdge.reachable writeAbortEdge.privilege .write 1 (writeAbortEdge.reg 14)) := by
  simp only [State.readable, State.reachable]
  decide +kernel

theorem witness_AbortedTransfers_block :
    let s := abortEdge
    let a : Word := 0xFFFFFFF8
    (s.abortsAt .read a 2 1 ∧ s.abortsAt .write a 2 1) ∧ 2 ^ 32 < (blockStart .ib (svcEdge.reg 14) 2).toNat + 4 * 2 ∧
    ((3 : BitVec 16) ≠ 0 ∧ (regList 3).length = 2 ∧ blockStart .ia (s.reg 14) 2 = a ∧
      (3 : BitVec 16).getLsbD (14 : Reg).toNat = false ∧ s.mode ≠ .usr ∧ s.mode ≠ .sys) ∧
    ((regList ((3 : BitVec 15).setWidth 16)).length = 2 ∧ (regList (1#1 ++ (1 : BitVec 15))).length = 2 ∧
      (1 : BitVec 15).getLsbD (14 : Reg).toNat = false) ∧
    ((12 : Reg).getLsbD 0 = false ∧ (12 : Reg) ≠ 14 ∧ ((14 : Reg) ≠ 15 ∧ (14 : Reg) ≠ 12 ∧ (14 : Reg) ≠ 12 + 1) ∧
      accessAddress .post (s.reg 14) 0 true = a ∧ a.toNat % 8 = 0 ∧
      (accessAddress .pre (s.reg 14) 4 false).toNat + 8 ≤ 2 ^ 32 ∧
      (accessAddress .pre (s.reg 14) 4 false).toNat % 8 ≠ 0 ∧
      2 ^ 32 < (accessAddress .pre (s.reg 14) 4 true).toNat + 8) ∧
    (s.privileged = true ∧ s.spsr? = some 0x10 ∧ modeOfNumber 0b11111 = some .sys ∧
      blockStart .ia (s.regOf .sys 13) 2 = a) ∧
    (s.cpReply 1 (encode (.ldc .al true true false true 14 0 1 0)) = some ⟨1, 2, 1, [3]⟩ ∧
      s.cpReply 1 (encode (.stc2 true true false true 14 0 1 0)) = some ⟨1, 2, 1, [3]⟩) :=
  ⟨⟨abortEdge_abortsAt (.inl rfl), abortEdge_abortsAt (.inr rfl)⟩, by decide +kernel⟩

theorem witness_DoublewordResults :
    Runs .al svcEdge ∧ (13 : Reg).getLsbD 0 = true ∧ (12 : Reg).getLsbD 0 = false ∧ (12 : Reg) ≠ 14 ∧
    (writesBack .post = false ∨ ((14 : Reg) ≠ 15 ∧ (14 : Reg) ≠ 12 ∧ (14 : Reg) ≠ 12 + 1)) ∧
    (accessAddress .post (svcEdge.reg 14) 0 true).toNat % 8 = 0 ∧
    svcEdge.readableBlock (accessAddress .post (svcEdge.reg 14) 0 true) [0x03020100, 0x10] ∧
    svcEdge.writableBlock (accessAddress .post (svcEdge.reg 14) 0 true) 2 ∧
    ((accessAddress .offset (svcEdge.reg 14) 4 false).toNat + 8 ≤ 2 ^ 32 ∧
      (accessAddress .offset (svcEdge.reg 14) 4 false).toNat % 8 ≠ 0) := by
  refine ⟨witness_runs, by decide, by decide, by decide, by decide, by decide +kernel, ?_, ?_, by decide +kernel⟩
  · simp only [State.readableBlock, State.readable, State.reachable]; decide +kernel
  · simp only [State.writableBlock, State.writable, State.reachable]; decide +kernel

theorem witness_ExclusiveResults :
    Runs .al svcEdge ∧ (14 : Reg) ≠ 15 ∧ (0 : Reg) ≠ 15 ∧ (0 : Reg) ≠ 14 ∧
    svcEdge.readable svcEdge.privilege 4 (svcEdge.reg 14) 0x03020100 ∧ (svcEdge.reg 14).toNat % 4 = 0 ∧
    ({ svcEdge with monitor := some 0xFFFFFFF8 }.monitor =
      some (BitVec.ofNat 32 ((svcEdge.reg 14).toNat / 2 ^ 3 * 2 ^ 3))) ∧
    svcEdge.monitor ≠ some (BitVec.ofNat 32 ((svcEdge.reg 14).toNat / 2 ^ 3 * 2 ^ 3)) ∧
    svcEdge.writable svcEdge.privilege 4 (svcEdge.reg 14) := by
  refine ⟨witness_runs, ?_⟩
  simp only [State.readable, State.writable, State.reachable]
  decide +kernel

theorem witness_PreloadAndSwapResults :
    svcEdge.pc.toNat + 4 < 2 ^ 32 ∧ (14 : Reg) ≠ 15 ∧ conditionPassed .al svcEdge = true ∧
    ((13 : Reg) ≠ 15 ∧ (12 : Reg) ≠ 15 ∧ (13 : Reg) ≠ 14 ∧ (13 : Reg) ≠ 12) ∧
    svcEdge.readable svcEdge.privilege 4 (svcEdge.reg 13) 0x03020100 ∧ svcEdge.writable svcEdge.privilege 4 (svcEdge.reg 13) ∧
    svcEdge.readable svcEdge.privilege 1 (svcEdge.reg 13) 0x00 ∧ svcEdge.writable svcEdge.privilege 1 (svcEdge.reg 13) := by
  refine ⟨by decide, by decide, rfl, by decide, ?_⟩
  simp only [State.readable, State.writable, State.reachable]
  decide +kernel

theorem witness_LoadMultipleResults :
    conditionPassed .al svcEdge = true ∧ (14 : Reg) ≠ 15 ∧ (0x8001 : BitVec 16) ≠ 0 ∧
    (0x8001 : BitVec 16).getLsbD (14 : Reg).toNat = false ∧ (0x4001 : BitVec 16).getLsbD (14 : Reg).toNat = true ∧
    [0x03020100, (0x10 : Word)].length = (regList 0x8001).length ∧
    svcEdge.readableBlock (blockStart .ia (svcEdge.reg 14) 2) [0x03020100, 0x10] ∧
    [0x03020100, (0x10 : Word)].getLastD 0 &&& 3 ≠ 2 ∧ ((3 : BitVec 16).getLsbD 15 = false ∧ svcEdge.pc.toNat + 4 < 2 ^ 32) ∧
    (let s := { svcEdge with mem := svcEdge.mem.writeBytes 0xFFFFFFFC [0x02] };
      s.readableBlock (blockStart .ia (s.reg 14) 2) [0x03020100, 2] ∧ [0x03020100, (2 : Word)].getLastD 0 &&& 3 = 2) := by
  simp only [State.readableBlock, State.readable, State.reachable]
  decide +kernel

theorem witness_LoadMultiplePrivileged :
    conditionPassed .al svcEdge = true ∧ conditionPassed .al userEdge = true ∧ svcEdge.pc.toNat + 4 < 2 ^ 32 ∧
    (14 : Reg) ≠ 15 ∧ (0x4001 : BitVec 15) ≠ 0 ∧ userEdge.mode = .usr ∧ (svcEdge.mode ≠ .usr ∧ svcEdge.mode ≠ .sys) ∧
    [0x03020100, (0x10 : Word)].length = (regList ((0x4001 : BitVec 15).setWidth 16)).length ∧
    svcEdge.readableBlock (blockStart .ia (svcEdge.reg 14) 2) [0x03020100, 0x10] ∧ userEdge.spsr? = none ∧
    (svcEdge.spsr? = some 0x10 ∧ legalMode 0x10 = true) ∧
    (let s := { svcEdge with spsr := Vector.replicate 5 0 };
      s.spsr? = some 0 ∧ legalMode 0 = false ∧ s.readableBlock (blockStart .ia (s.reg 14) 2) [0x03020100, 0x10]) ∧
    (0x0001 : BitVec 15).getLsbD (14 : Reg).toNat = false ∧ (0x4001 : BitVec 15).getLsbD (14 : Reg).toNat = true ∧
    [0x03020100, (0x10 : Word)].length = (regList (1#1 ++ (0x0001 : BitVec 15))).length := by
  simp only [State.readableBlock, State.readable, State.reachable]
  decide +kernel

theorem witness_StoreMultipleResults :
    Runs .al svcEdge ∧ (14 : Reg) ≠ 15 ∧ (13 : Reg) ≠ 15 ∧ (0xC000 : BitVec 16) ≠ 0 ∧
    svcEdge.writableBlock (blockStart .ia (svcEdge.reg 14) (regList 0xC000).length) (regList 0xC000).length ∧
    (regList 0xC000).head? = some 14 ∧ (0x6000 : BitVec 16).getLsbD (14 : Reg).toNat = true ∧
    (regList 0x6000).head? ≠ some 14 ∧ (regList 0x6000).length = (regList 0xC000).length ∧
    (0x6000 : BitVec 16).getLsbD (12 : Reg).toNat = false ∧
    (svcEdge.mode ≠ .usr ∧ svcEdge.mode ≠ .sys) ∧ userEdge.mode = .usr := by
  refine ⟨witness_runs, by decide, by decide, by decide, ?_, by decide⟩
  simp only [State.writableBlock, State.writable, State.reachable]
  decide +kernel

theorem witness_ReturnStateResults :
    ((14 : Reg) ≠ 15 ∧ userEdge.privileged = false) ∧
    (svcEdge.privileged = true ∧ svcEdge.readableBlock (blockStart .ia (svcEdge.reg 14) 2) [0x03020100, 0x10] ∧
      (0x10 : Word) &&& 0x06F0FC00 = 0 ∧ legalMode 0x10 = true) ∧
    (let s := { svcEdge with mem := svcEdge.mem.writeBytes 0xFFFFFFFC [0x00] };
      s.readableBlock (blockStart .ia (s.reg 14) 2) [0x03020100, 0] ∧ (0 : Word) &&& 0x06F0FC00 = 0 ∧ legalMode 0 = false) ∧
    (let s := { svcEdge with mem := svcEdge.mem.writeBytes 0xFFFFFFFD [0x04] };
      s.readableBlock (blockStart .ia (s.reg 14) 2) [0x03020100, 0x410] ∧ (0x410 : Word) &&& 0x06F0FC00 ≠ 0) ∧
    userEdge.spsr? = none ∧ svcEdge.spsr? = some 0x10 ∧ modeOfNumber 0 = none ∧ modeOfNumber 0b11111 = some .sys ∧
    svcEdge.pc.toNat + 4 < 2 ^ 32 ∧ svcEdge.writableBlock (blockStart .ia (svcEdge.regOf .sys 13) 2) 2 := by
  simp only [State.readableBlock, State.readable, State.writableBlock, State.writable, State.reachable]
  decide +kernel

theorem witness_ExceptionInstructions :
    conditionPassed .al svcEdge = true ∧ svcEdge.platform.debugOverridesBkpt = false ∧
    { svcEdge with platform := { Platform.default with debugOverridesBkpt := true } }.platform.debugOverridesBkpt = true ∧
    (conditionPassed .ne svcEdge = true ∧ Cond.ne ≠ .al) := by decide

theorem witness_RejectedCoprocessorInstructions :
    (cpOf (.cdp .al 0 0 0 0 0 0) = some 0 ∧
      (∀ c, condOf (.cdp .al 0 0 0 0 0 0) = some c → conditionPassed c svcEdge = true) ∧
      svcEdge.coprocs.get (cpIndex 0) = none) ∧
    (cpOf (.mcrr2 15 15 2 0 0) = some 2 ∧ (∀ c, condOf (.mcrr2 15 15 2 0 0) = some c → conditionPassed c svcEdge = true) ∧
      ∀ p, svcEdge.coprocs.get (cpIndex 2) = some p → ∀ a ∈ p.accepts,
        ¬(encode (.mcrr2 15 15 2 0 0) &&& a.key.mask = a.key.pattern ∧
          (a.key.state = none ∨ a.key.state = some p.history) ∧ a.priv = svcEdge.privilege)) := by
  refine ⟨⟨rfl, fun _ h => by cases h; rfl, by decide⟩, rfl, fun _ h => (nomatch h), fun p hp => ?_⟩
  obtain rfl : (⟨[], [⟨⟨0xF0000000, 0xE0000000, none⟩, .privileged⟩], [], ⟨1, 2, 1, [3]⟩⟩ : Coproc) = p :=
    Option.some.inj ((show some _ = svcEdge.coprocs.get (cpIndex 2) by decide).trans hp)
  decide +kernel

theorem witness_CoprocessorTransfers :
    Runs .al svcEdge ∧ svcEdge.cpReply 1 (encode (.mcr .al 0 0 14 1 0 0)) = some ⟨1, 2, 1, [3]⟩ ∧
      svcEdge.cpReply 1 (encode (.mrrc2 15 0 1 0 0)) = some ⟨1, 2, 1, [3]⟩ ∧ (14 : Reg) ≠ 15 ∧ (0 : Reg) ≠ 15 ∧
      (0 : Reg) ≠ 14 := ⟨witness_runs, by decide +kernel⟩

theorem witness_CoprocessorMemory :
    Runs .al svcEdge ∧ svcEdge.cpReply 1 (encode (.ldc .al true true false true 14 0 1 0)) = some ⟨1, 2, 1, [3]⟩ ∧
    svcEdge.cpReply 1 (encode (.stc2 true true false true 15 0 1 0)) = some ⟨1, 2, 1, [3]⟩ ∧
    [0x03020100, (0x10 : Word)].length = 1 + 1 ∧ svcEdge.writableBlock (svcEdge.reg 14) ([(3 : Word)].length + 1) ∧
    (14 : Reg) ≠ 15 ∧ svcEdge.readableBlock (svcEdge.reg 14) [0x03020100, 0x10] := by
  refine ⟨witness_runs, ?_⟩
  simp only [State.readableBlock, State.readable, State.writableBlock, State.writable, State.reachable]
  decide +kernel

theorem witness_AddressArithmetic :
    (Transfer.ldr.address (.imm 0xFFF) (IndexMode.of true true) true 14 svcEdge).toNat = 0xFF7 ∧
    (blockStart (BlockMode.of false false) 0 16).toNat = 0xFFFFFFC4 ∧ (15 : Reg) ∈ regList 0x8000 := by decide +kernel

end Sys2Proof.Tests
end

/-! The condition codes: the flags each code of Table A3-1 asks for, and the pairs of complementary codes
(40_condition_execution.md R161). -/
namespace Sys2Proof.Proofs
open Sys2Proof Sys2Proof.Machine

/-! ### The complementary conditions -/

theorem conditionPassed_ne (s : State) : conditionPassed .ne s = !conditionPassed .eq s := rfl

theorem conditionPassed_cc (s : State) : conditionPassed .cc s = !conditionPassed .cs s := rfl

theorem conditionPassed_pl (s : State) : conditionPassed .pl s = !conditionPassed .mi s := rfl

theorem conditionPassed_vc (s : State) : conditionPassed .vc s = !conditionPassed .vs s := rfl

theorem conditionPassed_ls (s : State) : conditionPassed .ls s = !conditionPassed .hi s := by
  simp only [conditionPassed, Bool.not_and, Bool.not_not]

theorem conditionPassed_lt (s : State) : conditionPassed .lt s = !conditionPassed .ge s := rfl

theorem conditionPassed_le (s : State) : conditionPassed .le s = !conditionPassed .gt s := by
  simp only [conditionPassed, Bool.not_and, Bool.not_not, bne]

/-- The codes 2k and 2k + 1 name complementary conditions: EQ and NE for k = 0, up to GT and LE for k = 6. -/
theorem conditionPassed_odd_code (s : State) : ∀ k : Fin 7,
    conditionPassed (Cond.ofCode (BitVec.ofNat 4 (2 * k + 1))) s =
      !conditionPassed (Cond.ofCode (BitVec.ofNat 4 (2 * k))) s
  | 0 => conditionPassed_ne s
  | 1 => conditionPassed_cc s
  | 2 => conditionPassed_pl s
  | 3 => conditionPassed_vc s
  | 4 => conditionPassed_ls s
  | 5 => conditionPassed_lt s
  | 6 => conditionPassed_le s

/-! ### The table -/

/-- Settles O5: each row of the table is the model's own case for the condition the code names, and the complements are
those of the seven pairs. -/
theorem conditionTable : Obligations.ConditionTable := by
  unfold Obligations.ConditionTable
  intro s
  exact ⟨rfl, rfl, rfl, rfl, rfl, rfl, rfl, rfl, rfl, rfl, rfl, rfl, rfl, rfl, rfl, conditionPassed_odd_code s⟩

end Sys2Proof.Proofs

/-! Writing R15 with a data-processing instruction (41_branch.md R187): an instruction with a destination is one call of
`dpOperate`, the result of which does not depend on the destination; so the word a branch to R15 takes is the one the same
instruction leaves in any other register. -/
namespace Sys2Proof.Proofs
open Sys2Proof Sys2Proof.Machine Sys2Proof.Laws

/-! ### The operation an instruction performs -/

/-- The register field of the first operand; MOV and MVN have none (42_data_processing.md R228). -/
def firstField (op : DpOp) (rn : Reg) : Option Reg :=
  match op with
  | .mov | .mvn => none
  | _ => some rn

/-- An operation with a destination whose second operand is an immediate or shifted by one is `dpOperate` on the value of
that operand, when its condition passes. -/
theorem exec_dpForm {op : DpOp} {o : Operand2} (hop : op ∉ [.tst, .teq, .cmp, .cmn])
    (hreg : ∀ rs ty rm, o ≠ .reg rs ty rm) (c : Cond) (sf : Bool) (rn rd : Reg) (s : State) :
    exec (dpForm op o c sf rn rd) s =
      whenCond c s (dpOperate op s sf (firstField op rn) (some rd) (o.value s)) := by
  cases op
  case tst | teq | cmp | cmn => exact absurd (by decide) hop
  all_goals
    cases o with
    | shift imm5 ty rm => rfl
    | reg rs ty rm => exact absurd rfl (hreg rs ty rm)
    | imm rot imm8 => rfl

/-! ### Writing the destination -/

/-- Where the next instruction is does not matter to a register other than R15. -/
theorem reg_with_pc (s : State) (a : Word) {r : Reg} (h : r ≠ 15) : { s with pc := a }.reg r = s.reg r := by
  rw [reg_eq _ r h, reg_eq s r h]
  rfl

/-- Without S, R15 as the destination is a jump (R208, R187). -/
theorem dpWrite_pc (s : State) (r : DpResult) :
    dpWrite s false (some 15) r = .next (s.jump (r.value &&& 0xFFFFFFFC)) := rfl

/-- Without S, another destination is written and the next instruction follows (R208). -/
theorem dpWrite_reg (s : State) (r : DpResult) {d : Reg} (h : d ≠ 15) :
    dpWrite s false (some d) r = advance (s.setReg d r.value) := if_neg h

/-- A destination other than R15 holds the result afterwards. -/
theorem reg_of_dpWrite {s t : State} {r : DpResult} {d : Reg} (h : d ≠ 15)
    (ht : dpWrite s false (some d) r = .next t) : t.reg d = r.value := by
  rw [dpWrite_reg s r h] at ht
  obtain ⟨-, rfl⟩ := advance_next.1 ht
  rw [reg_with_pc _ _ h, setReg_reg_same s d r.value h]

/-- What an operation without S leaves in a register other than R15 is what it branches to with R15 in place of that
register, but for bits[1:0]. -/
theorem dpOperate_pc_of_reg {op : DpOp} {s t : State} {rn : Option Reg} {so : Shifted} {d : Reg} (h : d ≠ 15)
    (ht : dpOperate op s false rn (some d) so = .next t) :
    dpOperate op s false rn (some 15) so = .next { s with pc := t.reg d &&& 0xFFFFFFFC } := by
  unfold dpOperate at ht ⊢
  rw [dpWrite_pc, reg_of_dpWrite h ht]
  rfl

/-- Settles O27: with R0 and with R15 as the destination the instruction is the same `dpOperate`, so the branch goes to
what R0 would hold. -/
theorem dataProcessingToPcBranches : Obligations.DataProcessingToPcBranches := by
  unfold Obligations.DataProcessingToPcBranches
  intro op o c rn s t hop hruns hreg hnext
  obtain ⟨hcond, -⟩ := hruns
  rw [exec_dpForm hop hreg, whenCond_pass _ hcond] at hnext ⊢
  exact dpOperate_pc_of_reg (by decide) hnext

end Sys2Proof.Proofs

/-! The round trip of the encoder and the decoder (30_encoding.md section 5). An instruction is encoded in its own row of the
opcode table (`roundTrip`), and no other row accepts that word (`table_clashes`), so the decoder gives it back. The other way
round, the fields a row reads of a word are put back where they were, and every bit outside them is fixed by the row. -/
namespace Sys2Proof.Proofs
open Sys2Proof Sys2Proof.Laws

/-! ### The rows of the table are disjoint -/

/-- Two rows of the table that accept one word are one row: the rows clash pairwise. -/
theorem table_row_unique {w : Word} {j k : Nat} {a b : Row} (ha : table[j]? = some a) (hb : table[k]? = some b)
    (hwa : a.accepts w = true) (hwb : b.accepts w = true) : j = k := by
  rcases Nat.lt_trichotomy j k with h | h | h
  · exact (clash_sound (clashesAll_sound table_clashes h ha hb) hwa hwb).elim
  · exact h
  · exact (clash_sound (clashesAll_sound table_clashes h hb ha) hwb hwa).elim

/-- Settles O3: rows at two places of the table clash, so no word is accepted by both. -/
theorem rowsAreDisjoint : Obligations.RowsAreDisjoint := by
  unfold Obligations.RowsAreDisjoint
  intro w j k a b ha hb hwa hwb
  exact table_row_unique ha hb hwa hwb

/-! ### Encoding, then decoding -/

/-- Each constructor's round trip, collected. -/
theorem roundTrip : ∀ i : Instr, RoundTrip.Statement i
  | .andShift .. => RoundTrip.andShift _ _ _ _ _ _ _
  | .andReg .. => RoundTrip.andReg _ _ _ _ _ _ _
  | .andImm .. => RoundTrip.andImm _ _ _ _ _ _
  | .eorShift .. => RoundTrip.eorShift _ _ _ _ _ _ _
  | .eorReg .. => RoundTrip.eorReg _ _ _ _ _ _ _
  | .eorImm .. => RoundTrip.eorImm _ _ _ _ _ _
  | .subShift .. => RoundTrip.subShift _ _ _ _ _ _ _
  | .subReg .. => RoundTrip.subReg _ _ _ _ _ _ _
  | .subImm .. => RoundTrip.subImm _ _ _ _ _ _
  | .rsbShift .. => RoundTrip.rsbShift _ _ _ _ _ _ _
  | .rsbReg .. => RoundTrip.rsbReg _ _ _ _ _ _ _
  | .rsbImm .. => RoundTrip.rsbImm _ _ _ _ _ _
  | .addShift .. => RoundTrip.addShift _ _ _ _ _ _ _
  | .addReg .. => RoundTrip.addReg _ _ _ _ _ _ _
  | .addImm .. => RoundTrip.addImm _ _ _ _ _ _
  | .adcShift .. => RoundTrip.adcShift _ _ _ _ _ _ _
  | .adcReg .. => RoundTrip.adcReg _ _ _ _ _ _ _
  | .adcImm .. => RoundTrip.adcImm _ _ _ _ _ _
  | .sbcShift .. => RoundTrip.sbcShift _ _ _ _ _ _ _
  | .sbcReg .. => RoundTrip.sbcReg _ _ _ _ _ _ _
  | .sbcImm .. => RoundTrip.sbcImm _ _ _ _ _ _
  | .rscShift .. => RoundTrip.rscShift _ _ _ _ _ _ _
  | .rscReg .. => RoundTrip.rscReg _ _ _ _ _ _ _
  | .rscImm .. => RoundTrip.rscImm _ _ _ _ _ _
  | .tstShift .. => RoundTrip.tstShift _ _ _ _ _
  | .tstReg .. => RoundTrip.tstReg _ _ _ _ _
  | .tstImm .. => RoundTrip.tstImm _ _ _ _
  | .teqShift .. => RoundTrip.teqShift _ _ _ _ _
  | .teqReg .. => RoundTrip.teqReg _ _ _ _ _
  | .teqImm .. => RoundTrip.teqImm _ _ _ _
  | .cmpShift .. => RoundTrip.cmpShift _ _ _ _ _
  | .cmpReg .. => RoundTrip.cmpReg _ _ _ _ _
  | .cmpImm .. => RoundTrip.cmpImm _ _ _ _
  | .cmnShift .. => RoundTrip.cmnShift _ _ _ _ _
  | .cmnReg .. => RoundTrip.cmnReg _ _ _ _ _
  | .cmnImm .. => RoundTrip.cmnImm _ _ _ _
  | .orrShift .. => RoundTrip.orrShift _ _ _ _ _ _ _
  | .orrReg .. => RoundTrip.orrReg _ _ _ _ _ _ _
  | .orrImm .. => RoundTrip.orrImm _ _ _ _ _ _
  | .movShift .. => RoundTrip.movShift _ _ _ _ _ _
  | .movReg .. => RoundTrip.movReg _ _ _ _ _ _
  | .movImm .. => RoundTrip.movImm _ _ _ _ _
  | .bicShift .. => RoundTrip.bicShift _ _ _ _ _ _ _
  | .bicReg .. => RoundTrip.bicReg _ _ _ _ _ _ _
  | .bicImm .. => RoundTrip.bicImm _ _ _ _ _ _
  | .mvnShift .. => RoundTrip.mvnShift _ _ _ _ _ _
  | .mvnReg .. => RoundTrip.mvnReg _ _ _ _ _ _
  | .mvnImm .. => RoundTrip.mvnImm _ _ _ _ _
  | .mul .. => RoundTrip.mul _ _ _ _ _
  | .mla .. => RoundTrip.mla _ _ _ _ _ _
  | .umaal .. => RoundTrip.umaal _ _ _ _ _
  | .umull .. => RoundTrip.umull _ _ _ _ _ _
  | .umlal .. => RoundTrip.umlal _ _ _ _ _ _
  | .smull .. => RoundTrip.smull _ _ _ _ _ _
  | .smlal .. => RoundTrip.smlal _ _ _ _ _ _
  | .smlaXY .. => RoundTrip.smlaXY _ _ _ _ _ _ _
  | .smlawY .. => RoundTrip.smlawY _ _ _ _ _ _
  | .smulwY .. => RoundTrip.smulwY _ _ _ _ _
  | .smlalXY .. => RoundTrip.smlalXY _ _ _ _ _ _ _
  | .smulXY .. => RoundTrip.smulXY _ _ _ _ _ _
  | .smuad .. => RoundTrip.smuad _ _ _ _ _
  | .smusd .. => RoundTrip.smusd _ _ _ _ _
  | .smlad .. => RoundTrip.smlad _ _ _ _ _ _
  | .smlsd .. => RoundTrip.smlsd _ _ _ _ _ _
  | .smlald .. => RoundTrip.smlald _ _ _ _ _ _
  | .smlsld .. => RoundTrip.smlsld _ _ _ _ _ _
  | .smmul .. => RoundTrip.smmul _ _ _ _ _
  | .smmla .. => RoundTrip.smmla _ _ _ _ _ _
  | .smmls .. => RoundTrip.smmls _ _ _ _ _ _
  | .sadd16 .. => RoundTrip.sadd16 _ _ _ _
  | .saddsubx .. => RoundTrip.saddsubx _ _ _ _
  | .ssubaddx .. => RoundTrip.ssubaddx _ _ _ _
  | .ssub16 .. => RoundTrip.ssub16 _ _ _ _
  | .sadd8 .. => RoundTrip.sadd8 _ _ _ _
  | .ssub8 .. => RoundTrip.ssub8 _ _ _ _
  | .qadd16 .. => RoundTrip.qadd16 _ _ _ _
  | .qaddsubx .. => RoundTrip.qaddsubx _ _ _ _
  | .qsubaddx .. => RoundTrip.qsubaddx _ _ _ _
  | .qsub16 .. => RoundTrip.qsub16 _ _ _ _
  | .qadd8 .. => RoundTrip.qadd8 _ _ _ _
  | .qsub8 .. => RoundTrip.qsub8 _ _ _ _
  | .shadd16 .. => RoundTrip.shadd16 _ _ _ _
  | .shaddsubx .. => RoundTrip.shaddsubx _ _ _ _
  | .shsubaddx .. => RoundTrip.shsubaddx _ _ _ _
  | .shsub16 .. => RoundTrip.shsub16 _ _ _ _
  | .shadd8 .. => RoundTrip.shadd8 _ _ _ _
  | .shsub8 .. => RoundTrip.shsub8 _ _ _ _
  | .uadd16 .. => RoundTrip.uadd16 _ _ _ _
  | .uaddsubx .. => RoundTrip.uaddsubx _ _ _ _
  | .usubaddx .. => RoundTrip.usubaddx _ _ _ _
  | .usub16 .. => RoundTrip.usub16 _ _ _ _
  | .uadd8 .. => RoundTrip.uadd8 _ _ _ _
  | .usub8 .. => RoundTrip.usub8 _ _ _ _
  | .uqadd16 .. => RoundTrip.uqadd16 _ _ _ _
  | .uqaddsubx .. => RoundTrip.uqaddsubx _ _ _ _
  | .uqsubaddx .. => RoundTrip.uqsubaddx _ _ _ _
  | .uqsub16 .. => RoundTrip.uqsub16 _ _ _ _
  | .uqadd8 .. => RoundTrip.uqadd8 _ _ _ _
  | .uqsub8 .. => RoundTrip.uqsub8 _ _ _ _
  | .uhadd16 .. => RoundTrip.uhadd16 _ _ _ _
  | .uhaddsubx .. => RoundTrip.uhaddsubx _ _ _ _
  | .uhsubaddx .. => RoundTrip.uhsubaddx _ _ _ _
  | .uhsub16 .. => RoundTrip.uhsub16 _ _ _ _
  | .uhadd8 .. => RoundTrip.uhadd8 _ _ _ _
  | .uhsub8 .. => RoundTrip.uhsub8 _ _ _ _
  | .sxtab16 .. => RoundTrip.sxtab16 _ _ _ _ _
  | .sxtb16 .. => RoundTrip.sxtb16 _ _ _ _
  | .sxtab .. => RoundTrip.sxtab _ _ _ _ _
  | .sxtb .. => RoundTrip.sxtb _ _ _ _
  | .sxtah .. => RoundTrip.sxtah _ _ _ _ _
  | .sxth .. => RoundTrip.sxth _ _ _ _
  | .uxtab16 .. => RoundTrip.uxtab16 _ _ _ _ _
  | .uxtb16 .. => RoundTrip.uxtb16 _ _ _ _
  | .uxtab .. => RoundTrip.uxtab _ _ _ _ _
  | .uxtb .. => RoundTrip.uxtb _ _ _ _
  | .uxtah .. => RoundTrip.uxtah _ _ _ _ _
  | .uxth .. => RoundTrip.uxth _ _ _ _
  | .clz .. => RoundTrip.clz _ _ _
  | .usad8 .. => RoundTrip.usad8 _ _ _ _
  | .usada8 .. => RoundTrip.usada8 _ _ _ _ _
  | .pkhbt .. => RoundTrip.pkhbt _ _ _ _ _
  | .pkhtb .. => RoundTrip.pkhtb _ _ _ _ _
  | .rev .. => RoundTrip.rev _ _ _
  | .rev16 .. => RoundTrip.rev16 _ _ _
  | .revsh .. => RoundTrip.revsh _ _ _
  | .sel .. => RoundTrip.sel _ _ _ _
  | .ssat .. => RoundTrip.ssat _ _ _ _ _ _
  | .ssat16 .. => RoundTrip.ssat16 _ _ _ _
  | .usat .. => RoundTrip.usat _ _ _ _ _ _
  | .usat16 .. => RoundTrip.usat16 _ _ _ _
  | .qadd .. => RoundTrip.qadd _ _ _ _
  | .qsub .. => RoundTrip.qsub _ _ _ _
  | .qdadd .. => RoundTrip.qdadd _ _ _ _
  | .qdsub .. => RoundTrip.qdsub _ _ _ _
  | .mrs .. => RoundTrip.mrs _ _ _
  | .msrImm .. => RoundTrip.msrImm _ _ _ _ _
  | .msrReg .. => RoundTrip.msrReg _ _ _ _
  | .cps .. => RoundTrip.cps _ _ _ _ _ _
  | .setend .. => RoundTrip.setend _
  | .b .. => RoundTrip.b _ _
  | .bl .. => RoundTrip.bl _ _
  | .blx1 .. => RoundTrip.blx1 _ _
  | .blx2 .. => RoundTrip.blx2 _ _
  | .bx .. => RoundTrip.bx _ _
  | .bxj .. => RoundTrip.bxj _ _
  | .ldrImm .. => RoundTrip.ldrImm _ _ _ _ _ _
  | .ldrReg .. => RoundTrip.ldrReg _ _ _ _ _ _ _ _
  | .ldrbImm .. => RoundTrip.ldrbImm _ _ _ _ _ _
  | .ldrbReg .. => RoundTrip.ldrbReg _ _ _ _ _ _ _ _
  | .strImm .. => RoundTrip.strImm _ _ _ _ _ _
  | .strReg .. => RoundTrip.strReg _ _ _ _ _ _ _ _
  | .strbImm .. => RoundTrip.strbImm _ _ _ _ _ _
  | .strbReg .. => RoundTrip.strbReg _ _ _ _ _ _ _ _
  | .ldrtImm .. => RoundTrip.ldrtImm _ _ _ _ _
  | .ldrtReg .. => RoundTrip.ldrtReg _ _ _ _ _ _ _
  | .ldrbtImm .. => RoundTrip.ldrbtImm _ _ _ _ _
  | .ldrbtReg .. => RoundTrip.ldrbtReg _ _ _ _ _ _ _
  | .strtImm .. => RoundTrip.strtImm _ _ _ _ _
  | .strtReg .. => RoundTrip.strtReg _ _ _ _ _ _ _
  | .strbtImm .. => RoundTrip.strbtImm _ _ _ _ _
  | .strbtReg .. => RoundTrip.strbtReg _ _ _ _ _ _ _
  | .strhImm .. => RoundTrip.strhImm _ _ _ _ _ _
  | .strhReg .. => RoundTrip.strhReg _ _ _ _ _ _
  | .ldrdImm .. => RoundTrip.ldrdImm _ _ _ _ _ _
  | .ldrdReg .. => RoundTrip.ldrdReg _ _ _ _ _ _
  | .strdImm .. => RoundTrip.strdImm _ _ _ _ _ _
  | .strdReg .. => RoundTrip.strdReg _ _ _ _ _ _
  | .ldrhImm .. => RoundTrip.ldrhImm _ _ _ _ _ _
  | .ldrhReg .. => RoundTrip.ldrhReg _ _ _ _ _ _
  | .ldrsbImm .. => RoundTrip.ldrsbImm _ _ _ _ _ _
  | .ldrsbReg .. => RoundTrip.ldrsbReg _ _ _ _ _ _
  | .ldrshImm .. => RoundTrip.ldrshImm _ _ _ _ _ _
  | .ldrshReg .. => RoundTrip.ldrshReg _ _ _ _ _ _
  | .ldrex .. => RoundTrip.ldrex _ _ _
  | .strex .. => RoundTrip.strex _ _ _ _
  | .pldImm .. => RoundTrip.pldImm _ _ _
  | .pldReg .. => RoundTrip.pldReg _ _ _ _ _
  | .ldm1 .. => RoundTrip.ldm1 _ _ _ _ _
  | .ldm2 .. => RoundTrip.ldm2 _ _ _ _
  | .ldm3 .. => RoundTrip.ldm3 _ _ _ _ _
  | .stm1 .. => RoundTrip.stm1 _ _ _ _ _
  | .stm2 .. => RoundTrip.stm2 _ _ _ _
  | .rfe .. => RoundTrip.rfe _ _ _
  | .srs .. => RoundTrip.srs _ _ _
  | .swp .. => RoundTrip.swp _ _ _ _
  | .swpb .. => RoundTrip.swpb _ _ _ _
  | .swi .. => RoundTrip.swi _ _
  | .bkpt .. => RoundTrip.bkpt _ _
  | .undef .. => RoundTrip.undef _ _
  | .cdp .. => RoundTrip.cdp _ _ _ _ _ _ _
  | .ldc .. => RoundTrip.ldc _ _ _ _ _ _ _ _ _
  | .stc .. => RoundTrip.stc _ _ _ _ _ _ _ _ _
  | .mcr .. => RoundTrip.mcr _ _ _ _ _ _ _
  | .mrc .. => RoundTrip.mrc _ _ _ _ _ _ _
  | .mcrr .. => RoundTrip.mcrr _ _ _ _ _ _
  | .mrrc .. => RoundTrip.mrrc _ _ _ _ _ _
  | .cdp2 .. => RoundTrip.cdp2 _ _ _ _ _ _
  | .ldc2 .. => RoundTrip.ldc2 _ _ _ _ _ _ _ _
  | .stc2 .. => RoundTrip.stc2 _ _ _ _ _ _ _ _
  | .mcr2 .. => RoundTrip.mcr2 _ _ _ _ _ _
  | .mrc2 .. => RoundTrip.mrc2 _ _ _ _ _ _
  | .mcrr2 .. => RoundTrip.mcrr2 _ _ _ _ _
  | .mrrc2 .. => RoundTrip.mrrc2 _ _ _ _ _

/-- A word is decoded by the row that accepts it, whichever place the row has. -/
theorem decodeWord_of_row {w : Word} {k : Nat} {r : Row} (hk : table[k]? = some r) (hacc : r.accepts w = true)
    (hprop : r.proper w = true) : decodeWord w = .instr (r.build w) := by
  rw [decodeWord_of_first k hk hacc, if_pos hprop]
  intro j hj q hq
  by_contra hne
  exact Nat.ne_of_lt hj (table_row_unique hq hk (Bool.eq_true_of_not_eq_false hne) hacc)

/-- Settles O1: the instruction's own row accepts its word and reads it back, and is the row that decodes it. -/
theorem decodeOfEncode : Obligations.DecodeOfEncode := by
  unfold Obligations.DecodeOfEncode
  intro i hwf
  obtain ⟨r, hrow, hacc, hprop, hbuild⟩ := roundTrip i hwf
  rw [decodeWord_of_row hrow hacc hprop, hbuild]

end Sys2Proof.Proofs

/-! Decoding, then encoding (30_encoding.md section 5). The word of the decoded instruction is the fixed bits of its row
together with the bits of `w` under the row's fields (`place_field`, `flag_bitAt`); fields, decode bits and should-be bits
cover the word (`fixed_or_fields`), so nothing of it is dropped. -/
namespace Sys2Proof.Proofs
open Sys2Proof Sys2Proof.Laws

/-! ### A field put back in its place -/

/-- The `len` bits from bit `lo` up, as a mask. -/
def fieldMask (lo len : Nat) : Word := (BitVec.allOnes len).setWidth 32 <<< lo

/-- A field put back where it was read is the word under the field's mask. -/
theorem place_field (w : Word) (lo len : Nat) : place lo (field w lo len) = w &&& fieldMask lo len := by
  apply BitVec.eq_of_getLsbD_eq
  intro i hi
  by_cases hlo : i < lo
  · simp [place, fieldMask, hlo]
  · have hsum : lo + (i - lo) = i := by omega
    simp [place, field, fieldMask, hlo, hi, hsum, Bool.and_comm]

/-- A bit put back where it was read is the word under that bit's mask. -/
theorem flag_bitAt (w : Word) (i : Nat) : flag i (bitAt w i) = w &&& fieldMask i 1 := by
  have hbit : BitVec.ofBool (bitAt w i) = field w i 1 := by
    apply BitVec.eq_of_getLsbD_eq
    intro k hk
    obtain rfl : k = 0 := by omega
    simp [bitAt, field]
  rw [flag, hbit, place_field]

/-- The code of the condition read from a code is that code, but for 0b1111. -/
theorem code_ofCode {v : BitVec 4} (h : v ≠ 15) : (Cond.ofCode v).code = v := by
  revert v; decide

/-- The code of the shift read from a code is that code. -/
theorem shift_code_ofCode (v : BitVec 2) : (ShiftType.ofCode v).code = v := by
  revert v; decide

/-- A field of ones is the mask itself. -/
theorem and_fieldMask_of_ones {w : Word} {lo len : Nat} (h : field w lo len = BitVec.allOnes len) :
    w &&& fieldMask lo len = fieldMask lo len := by
  rw [← place_field, h]; rfl

/-- A word of no row with a condition has a condition. -/
theorem cond_code_field {w : Word} (h : w &&& condF.1 ≠ condF.2) :
    (Cond.ofCode (field w 28 4)).code = field w 28 4 :=
  code_ofCode fun h15 => h (and_fieldMask_of_ones (lo := 28) (len := 4) h15)

/-- Outside the words excluded for P = 0 with W = 1 the W bit is that of the index mode. -/
theorem indexMode_w_bits {w : Word} (h : w &&& postW.1 ≠ postW.2) :
    (IndexMode.of (bitAt w 24) (bitAt w 21)).w = bitAt w 21 := by
  by_cases hp : bitAt w 24
  · cases hw : bitAt w 21 <;> simp [IndexMode.of, IndexMode.w, hp]
  · cases hw : bitAt w 21
    · simp [IndexMode.of, IndexMode.w, hp]
    · refine absurd ?_ h
      have hsplit : w &&& postW.1 = flag 24 (bitAt w 24) ||| flag 21 (bitAt w 21) := by
        rw [flag_bitAt, flag_bitAt, ← BitVec.and_or_distrib_left]; rfl
      rw [hsplit, hw, Bool.eq_false_of_not_eq_true hp]; rfl

/-- The P bit of the index mode of two bits. -/
theorem indexMode_p (p w : Bool) : (IndexMode.of p w).p = p := by cases p <;> cases w <;> rfl

/-- The P bit of the block mode of two bits. -/
theorem blockMode_p (p u : Bool) : (BlockMode.of p u).p = p := by cases p <;> cases u <;> rfl

/-- The U bit of the block mode of two bits. -/
theorem blockMode_u (p u : Bool) : (BlockMode.of p u).u = u := by cases p <;> cases u <;> rfl

/-- The upper part of two joined fields. -/
theorem extract_append_high {m n : Nat} (a : BitVec m) (b : BitVec n) : (a ++ b).extractLsb' n m = a := by
  apply BitVec.eq_of_getLsbD_eq
  intro i hi
  simp [BitVec.getLsbD_append, hi]

/-- The lower part of two joined fields. -/
theorem extract_append_low {m n : Nat} (a : BitVec m) (b : BitVec n) : (a ++ b).extractLsb' 0 n = b := by
  apply BitVec.eq_of_getLsbD_eq
  intro i hi
  simp [BitVec.getLsbD_append, hi]

/-! ### A row reads back the words it accepts -/

/-- The bits a row fixes: its pattern and its should-be-one bits. -/
def Row.fixed (r : Row) : Word := r.pattern ||| r.sbo

/-- The bits of a word that a row leaves to the fields. -/
def Row.fields (r : Row) : Word := ~~~(r.mask ||| r.sbo ||| r.sbz)

/-- The fixed bits of a row and the bits of the word under its fields make up the word. -/
theorem fixed_or_fields {r : Row} {w : Word} (hmask : w &&& r.mask = r.pattern) (hsbz : w &&& r.sbz = 0)
    (hsbo : w &&& r.sbo = r.sbo) : Row.fixed r ||| (w &&& Row.fields r) = w := by
  calc Row.fixed r ||| (w &&& Row.fields r)
      = ((w &&& r.mask) ||| (w &&& r.sbo)) ||| ((w &&& r.sbz) ||| (w &&& Row.fields r)) := by
        rw [hmask, hsbo, hsbz, Row.fixed]; simp
    _ = w &&& ((r.mask ||| r.sbo ||| r.sbz) ||| Row.fields r) := by
        simp only [← BitVec.and_or_distrib_left, BitVec.or_assoc]
    _ = w := by rw [Row.fields, BitVec.or_not_self, BitVec.and_allOnes]

/-- The row gives back every word that it accepts as an instruction, and the instruction is well formed. -/
def ReadsBack (r : Row) : Prop :=
  ∀ w : Word, r.accepts w = true → r.proper w = true → encode (r.build w) = w ∧ (r.build w).wf = true

/-- A row reads back its words where the encoder of what it builds gives its fixed bits and the word's own bits elsewhere. -/
theorem readsBack_of {r : Row}
    (henc : ∀ w : Word, (r.exclude ++ r.unpred).all (fun e => w &&& e.1 != e.2) = true →
      encode (r.build w) = Row.fixed r ||| (w &&& Row.fields r) ∧ (r.build w).wf = true) : ReadsBack r := by
  intro w hacc hprop
  simp only [Row.accepts, Row.proper, Bool.and_eq_true, beq_iff_eq] at hacc hprop
  obtain ⟨hmask, hexcl⟩ := hacc
  obtain ⟨⟨hsbz, hsbo⟩, hunpred⟩ := hprop
  obtain ⟨henc, hwf⟩ := henc w (by rw [List.all_append, hexcl, hunpred]; rfl)
  exact ⟨henc.trans (fixed_or_fields hmask hsbz hsbo), hwf⟩

/-- A register field that is not all ones holds a register. -/
theorem notAll1_field {w : Word} {lo : Nat} (h : w &&& fieldMask lo 4 ≠ fieldMask lo 4) : notAll1 (field w lo 4) = true :=
  bne_iff_ne.mpr fun h15 => h (and_fieldMask_of_ones (len := 4) h15)

/-- A word outside the excluded P = U = W = 0 has one of the three bits. -/
theorem ldcForm_bits {w : Word} (h : w &&& noPUW.1 ≠ noPUW.2) : ldcForm (bitAt w 24) (bitAt w 23) (bitAt w 21) = true := by
  by_contra hnone
  simp only [ldcForm, Bool.not_eq_true, Bool.or_eq_false_iff] at hnone
  obtain ⟨⟨hp, hu⟩, hw⟩ := hnone
  have hsplit : w &&& noPUW.1 = flag 24 (bitAt w 24) ||| (flag 23 (bitAt w 23) ||| flag 21 (bitAt w 21)) := by
    rw [flag_bitAt, flag_bitAt, flag_bitAt, ← BitVec.and_or_distrib_left, ← BitVec.and_or_distrib_left]; rfl
  exact h (by rw [hsplit, hp, hu, hw]; rfl)

/-- The rows of the data-processing instructions read back their words. -/
theorem dataProcessing_readsBack : ∀ r ∈ rowsLogical ++ rowsAddSub ++ rowsTest ++ rowsMove, ReadsBack r := by
  rw [← List.forall_iff_forall_mem]
  simp only [rowsLogical, rowsAddSub, rowsTest, rowsMove, List.cons_append, List.nil_append, List.Forall]
  repeat' apply And.intro
  all_goals
    refine readsBack_of fun w hne => ?_
    simp only [List.cons_append, List.nil_append, List.all_cons, List.all_nil, Bool.and_true, bne_iff_ne] at hne
    constructor
    · simp only [encode, flag_bitAt, place_field, cond_code_field, shift_code_ofCode, hne, ne_eq, not_false_eq_true,
        BitVec.or_assoc, ← BitVec.and_or_distrib_left]
      rfl
    · rfl

/-- The rows of the multiplies, the parallel and the extend instructions read back their words. -/
theorem arithmetic_readsBack : ∀ r ∈ rowsMultiply ++ rowsParallelS ++ rowsParallelU ++ rowsExtend, ReadsBack r := by
  rw [← List.forall_iff_forall_mem]
  simp only [rowsMultiply, rowsParallelS, rowsParallelU, rowsExtend, List.cons_append, List.nil_append, List.Forall]
  repeat' apply And.intro
  all_goals
    refine readsBack_of fun w hne => ?_
    simp only [List.cons_append, List.nil_append, List.all_cons, List.all_nil, Bool.and_true, Bool.and_eq_true, bne_iff_ne] at hne
    constructor
    · simp only [encode, flag_bitAt, place_field, cond_code_field, hne, ne_eq, not_false_eq_true,
        BitVec.or_assoc, ← BitVec.and_or_distrib_left]
      rfl
    · first | rfl | exact notAll1_field hne.2

/-- The rows of the rest of the media instructions, the status registers and the branches read back their words. -/
theorem control_readsBack : ∀ r ∈ rowsMisc ++ rowsStatus ++ rowsBranch, ReadsBack r := by
  rw [← List.forall_iff_forall_mem]
  simp only [rowsMisc, rowsStatus, rowsBranch, List.cons_append, List.nil_append, List.Forall]
  repeat' apply And.intro
  all_goals
    refine readsBack_of fun w hne => ?_
    simp only [List.cons_append, List.nil_append, List.all_cons, List.all_nil, Bool.and_true, Bool.and_eq_true, bne_iff_ne] at hne
    constructor
    · simp only [encode, flag_bitAt, place_field, cond_code_field, hne, ne_eq, not_false_eq_true,
        BitVec.or_assoc, ← BitVec.and_or_distrib_left]
      rfl
    · first | rfl | exact notAll1_field hne.2

/-- The rows of the single loads and stores read back their words. -/
theorem single_readsBack : ∀ r ∈ rowsWord ++ rowsHalf ++ rowsExclusive, ReadsBack r := by
  rw [← List.forall_iff_forall_mem]
  simp only [rowsWord, rowsHalf, rowsExclusive, List.cons_append, List.nil_append, List.Forall]
  repeat' apply And.intro
  all_goals
    refine readsBack_of fun w hne => ?_
    simp only [List.cons_append, List.nil_append, List.all_cons, List.all_nil, Bool.and_true, Bool.and_eq_true, bne_iff_ne] at hne
    constructor
    · simp only [encode, flag_bitAt, place_field, cond_code_field, shift_code_ofCode, indexMode_w_bits, indexMode_p, extract_append_high, extract_append_low, hne, ne_eq, not_false_eq_true,
        BitVec.or_assoc, ← BitVec.and_or_distrib_left]
      rfl
    · rfl

/-- The rows of the block transfers, the exceptions and the coprocessor instructions read back their words. -/
theorem block_readsBack : ∀ r ∈ rowsBlock ++ rowsException ++ rowsCoproc ++ rowsCoproc2, ReadsBack r := by
  rw [← List.forall_iff_forall_mem]
  simp only [rowsBlock, rowsException, rowsCoproc, rowsCoproc2, List.cons_append, List.nil_append, List.Forall]
  repeat' apply And.intro
  all_goals
    refine readsBack_of fun w hne => ?_
    simp only [List.cons_append, List.nil_append, List.all_cons, List.all_nil, Bool.and_true, Bool.and_eq_true, bne_iff_ne] at hne
    constructor
    · simp only [encode, flag_bitAt, place_field, cond_code_field, blockMode_p, blockMode_u, extract_append_high, extract_append_low, hne, ne_eq, not_false_eq_true,
        BitVec.or_assoc, ← BitVec.and_or_distrib_left]
      rfl
    · first | rfl | exact ldcForm_bits hne.2 | exact ldcForm_bits hne

/-- Every row of the table reads back its words. -/
theorem table_readsBack : ∀ r ∈ table, ReadsBack r := by
  simpa only [table, List.forall_mem_append, and_assoc] using
    And.intro dataProcessing_readsBack (And.intro arithmetic_readsBack
      (And.intro control_readsBack (And.intro single_readsBack block_readsBack)))

/-- Settles O2: the row that decodes the word reads it back. -/
theorem encodeOfDecode : Obligations.EncodeOfDecode := by
  unfold Obligations.EncodeOfDecode
  intro w i hdec
  obtain ⟨r, hr, hacc, hprop, rfl⟩ := decodeWord_instr hdec
  exact table_readsBack r hr w hacc hprop

/-- Settles O4: the table is searched for each word. -/
theorem sampleWordsDecode : Obligations.SampleWordsDecode := by
  unfold Obligations.SampleWordsDecode
  decide +kernel

end Sys2Proof.Proofs

/-! The step (40_condition_execution.md R162, R166): the interrupts, then the fetch, then the word fetched. What a step does is
read off the interrupt taken (`interrupt_*`), the answer of the fetch (`fetch_*`) and the class of the word. -/
namespace Sys2Proof.Proofs
open Sys2Proof Sys2Proof.Machine Sys2Proof.Laws

/-! ### The condition of an instruction -/

/-- An instruction with a condition tests it before anything else. -/
theorem exec_tests_condition {i : Instr} {c : Cond} (h : condOf i = some c) (s : State) :
    ∃ o, exec i s = whenCond c s o := by
  cases i <;> cases h <;> exact ⟨_, rfl⟩

/-- An instruction whose condition fails only advances (R162). -/
theorem exec_of_failed {i : Instr} {c : Cond} {s : State} (h : condOf i = some c) (hfail : conditionPassed c s = false) :
    exec i s = advance s := by
  obtain ⟨o, ho⟩ := exec_tests_condition h s
  rw [ho, whenCond_fail o hfail]

/-- A row whose words have a condition, in their top four bits, or are unconditional. -/
def HasCondition (r : Row) : Prop :=
  (∀ w : Word, condOf (r.build w) = some (Cond.ofCode (field w 28 4))) ∨
    (r.mask &&& fieldMask 28 4 = fieldMask 28 4 ∧ r.pattern &&& fieldMask 28 4 = fieldMask 28 4)

/-- Every row of the table has its condition there, or fixes the four bits at 0b1111. -/
theorem table_hasCondition : ∀ r ∈ table, HasCondition r := by
  simp only [table, List.forall_mem_append, ← List.forall_iff_forall_mem, rowsLogical, rowsAddSub, rowsTest, rowsMove,
    rowsMultiply, rowsParallelS, rowsParallelU, rowsExtend, rowsMisc, rowsStatus, rowsBranch, rowsWord, rowsHalf,
    rowsExclusive, rowsBlock, rowsException, rowsCoproc, rowsCoproc2, List.Forall]
  repeat' apply And.intro
  all_goals first | exact .inl fun _ => rfl | exact .inr (by decide)

/-- The top four bits of a word of an unconditional row. -/
theorem field_of_fixed {r : Row} {w : Word} (hacc : r.accepts w = true) (hmask : r.mask &&& fieldMask 28 4 = fieldMask 28 4)
    (hpat : r.pattern &&& fieldMask 28 4 = fieldMask 28 4) : field w 28 4 = 0b1111 := by
  simp only [Row.accepts, Bool.and_eq_true, beq_iff_eq] at hacc
  obtain ⟨hw, -⟩ := hacc
  have hand : w &&& fieldMask 28 4 = fieldMask 28 4 := by
    rw [← hmask, ← BitVec.and_assoc, hw, hpat, hmask]
  have hplace : place 28 (field w 28 4) = place 28 (BitVec.allOnes 4) := by rw [place_field, hand]; rfl
  simpa [field_place_same] using congrArg (field · 28 4) hplace

/-- The condition of a decoded word is the one in its top four bits. -/
theorem condOf_decoded {w : Word} {i : Instr} (h : decodeWord w = .instr i) (hcond : field w 28 4 ≠ 0b1111) :
    condOf i = some (Cond.ofCode (field w 28 4)) := by
  obtain ⟨r, hr, hacc, -, rfl⟩ := decodeWord_instr h
  rcases table_hasCondition r hr with hc | ⟨hmask, hpat⟩
  · exact hc w
  · exact absurd (field_of_fixed hacc hmask hpat) hcond

/-- A word whose condition fails only advances, whatever it is (R162). -/
theorem execWord_of_failed {w : Word} {s : State} (hcond : field w 28 4 ≠ 0b1111)
    (hfail : conditionPassed (Cond.ofCode (field w 28 4)) s = false) : execWord w s = advance s := by
  have hword : ∀ o, whenWordCond w s o = advance s := fun o => by
    rw [whenWordCond, if_neg hcond, whenCond_fail o hfail]
  unfold execWord
  split
  · next i hi => exact exec_of_failed (condOf_decoded hi hcond) hfail
  · exact hword _
  · exact hword _

/-- A word that is no instruction does what its class says where its condition passes or it has none. -/
theorem whenWordCond_pass {w : Word} {s : State} (o : Out)
    (h : field w 28 4 = 0b1111 ∨ conditionPassed (Cond.ofCode (field w 28 4)) s = true) : whenWordCond w s o = o := by
  unfold whenWordCond
  split_ifs with hf
  · rfl
  · exact whenCond_pass o (h.resolve_left hf)

/-! ### The interrupt taken -/

theorem interrupt_fiq {s : State} (hline : s.linesNow.fiq = true) (hmask : s.f = false) : s.interrupt = some .fiq := by
  simp [State.interrupt, hline, hmask]

theorem interrupt_irq {s : State} (hline : s.linesNow.irq = true) (hmask : s.i = false)
    (hfiq : s.linesNow.fiq = false ∨ s.f = true) : s.interrupt = some .irq := by
  rcases hfiq with h | h <;> simp [State.interrupt, hline, hmask, h]

theorem interrupt_none {s : State} (hfiq : s.linesNow.fiq = false ∨ s.f = true)
    (hirq : s.linesNow.irq = false ∨ s.i = true) : s.interrupt = none := by
  rcases hfiq with h | h <;> rcases hirq with h' | h' <;> simp [State.interrupt, h, h']

/-- An interrupt ends the step with its entry. -/
theorem step_of_interrupt {s : State} {k : ExceptionKind} (h : s.interrupt = some k) :
    step s = .next (takeException k s.tick) := by
  simp only [step, h, raise]

/-- With no interrupt the step fetches, the lines of this step consumed. -/
theorem step_of_no_interrupt {s : State} (h : s.interrupt = none) : step s = fetchAndExecute s.tick := by
  simp only [step, h]

/-- What a step does with the answer of its fetch. -/
def afterFetch (s : State) : Fetched → Out
  | .word w => execWord w s
  | .abort => raise .prefetchAbort s
  | .written => .refused .fetchWritten
  | .unwritten => .fault .unwrittenMemory

/-- With no interrupt and in ARM state the step is what the fetch gives. -/
theorem step_of_fetch {s : State} (h : s.interrupt = none) (ht : s.t = false) (hj : s.j = false) :
    step s = afterFetch s.tick s.fetch := by
  rw [step_of_no_interrupt h, fetchAndExecute, show s.tick.t = false from ht, show s.tick.j = false from hj]
  change (match s.fetch with | .word _ => _ | .abort => _ | .written => _ | .unwritten => _) = _
  cases s.fetch <;> rfl

/-! ### The answer of the fetch -/

/-- The fetch is aborted exactly where the memory system does not let it through. -/
theorem fetch_of_not_allowed {s : State} (h : memPermitted s.platform s.pc.toNat 4 .fetch s.privilege = false ∨
    memAborts s.platform s.pc.toNat 4 .fetch = true) : s.fetch = .abort := by
  unfold State.fetch
  rw [if_pos (by rcases h with h | h <;> simp [h])]

/-- One of four addresses from an address up counts as written. -/
theorem any_written_iff {s : State} :
    (List.range 4).any (fun k => s.written.contains (s.pc.toNat + k)) = true ↔ ∃ k < 4, s.pc.toNat + k ∈ s.written := by
  simp only [List.any_eq_true, List.mem_range, List.contains_iff_mem]

/-- A fetch that is let through refuses a byte the program has written. -/
theorem fetch_of_written {s : State} (h : s.fetchAllowed) (hw : ∃ k < 4, s.pc.toNat + k ∈ s.written) :
    s.fetch = .written := by
  obtain ⟨hperm, habort⟩ := h
  unfold State.fetch
  rw [if_neg (by simp [hperm, habort]), if_pos (any_written_iff.2 hw)]

/-- A fetch that is let through, of bytes the program has not written, reads them. -/
theorem fetch_of_read {s : State} {bs : List Byte} (h : s.fetchAllowed) (hw : ∀ k < 4, s.pc.toNat + k ∉ s.written)
    (hread : s.mem.readBytes s.pc.toNat 4 = some bs) : s.fetch = .word (wordOfLittle bs) := by
  obtain ⟨hperm, habort⟩ := h
  simp only [State.fetch, hperm, habort, Bool.not_true, Bool.or_self, Bool.false_eq_true, if_false, any_written_iff, hread]
  exact if_neg fun ⟨k, hk, hmem⟩ => hw k hk hmem

/-- A fetch that is let through finds nothing where one of the bytes has no value. -/
theorem fetch_of_unread {s : State} (h : s.fetchAllowed) (hw : ∀ k < 4, s.pc.toNat + k ∉ s.written)
    (hread : s.mem.readBytes s.pc.toNat 4 = none) : s.fetch = .unwritten := by
  obtain ⟨hperm, habort⟩ := h
  simp only [State.fetch, hperm, habort, Bool.not_true, Bool.or_self, Bool.false_eq_true, if_false, any_written_iff, hread]
  exact if_neg fun ⟨k, hk, hmem⟩ => hw k hk hmem

/-- Four bytes that all have values are read. -/
theorem readBytes_four {m : Memory} {a : Nat} {b0 b1 b2 b3 : Byte} (h0 : m.read a = some b0) (h1 : m.read (a + 1) = some b1)
    (h2 : m.read (a + 2) = some b2) (h3 : m.read (a + 3) = some b3) : m.readBytes a 4 = some [b0, b1, b2, b3] := by
  simp [Memory.readBytes, h0, h1, h2, h3]

/-- A run of bytes is not read where one of them has no value. -/
theorem readBytes_none {m : Memory} {n : Nat} : ∀ {a k : Nat}, k < n → m.read (a + k) = none → m.readBytes a n = none := by
  induction n with
  | zero => intro a k hk; omega
  | succ n ih =>
    intro a k hk hnone
    cases k with
    | zero => simp only [Nat.add_zero] at hnone; simp [Memory.readBytes, hnone]
    | succ k =>
      have hrest := ih (a := a + 1) (k := k) (by omega) (by rwa [Nat.add_assoc, Nat.add_comm 1 k])
      simp [Memory.readBytes, hrest]

/-- The word of four bytes, the first at the lowest address. -/
theorem wordOfLittle_four (b0 b1 b2 b3 : Byte) : wordOfLittle [b0, b1, b2, b3] = wordOfBytes b0 b1 b2 b3 := by
  apply BitVec.eq_of_getLsbD_eq
  intro i hi
  simp only [wordOfLittle, wordOfBytes, BitVec.getLsbD_or, BitVec.getLsbD_append, BitVec.getLsbD_shiftLeft,
    BitVec.getLsbD_setWidth]
  interval_cases i <;> simp

/-- The word whose bytes a fetch finds is the word fetched. -/
theorem wordOfBytes_bytes (w : Word) :
    wordOfBytes (w.extractLsb' 0 8) (w.extractLsb' 8 8) (w.extractLsb' 16 8) (w.extractLsb' 24 8) = w := by
  apply BitVec.eq_of_getLsbD_eq
  intro i hi
  simp only [wordOfBytes, BitVec.getLsbD_append, BitVec.getLsbD_extractLsb']
  interval_cases i <;> simp

/-- Where the fetch finds a word it gives it. -/
theorem fetch_of_fetches {s : State} {w : Word} (h : s.fetches w) : s.fetch = .word w := by
  obtain ⟨hallowed, hbytes⟩ := h
  have hread := readBytes_four (hbytes 0 (by decide)).2 (hbytes 1 (by decide)).2 (hbytes 2 (by decide)).2
    (hbytes 3 (by decide)).2
  rw [fetch_of_read hallowed (fun k hk => (hbytes k hk).1) hread, wordOfLittle_four]
  exact congrArg Fetched.word (wordOfBytes_bytes w)

/-- The step of a fetched word is its execution. -/
theorem step_of_fetches {s : State} {w : Word} (h : s.interrupt = none) (ht : s.t = false) (hj : s.j = false)
    (hw : s.fetches w) : step s = execWord w s.tick := by
  rw [step_of_fetch h ht hj, fetch_of_fetches hw, afterFetch]

/-! ### What a step does -/

theorem advance_nop {s : State} (h : s.pc.toNat + 4 < 2 ^ 32) : advance s = .next s.afterNothing := advance_of_lt h

theorem advance_wrap {s : State} (h : 2 ^ 32 ≤ s.pc.toNat + 4) : advance s = .fault .pcWrap :=
  if_neg (Nat.not_lt.2 h)

/-- Settles O6: the condition is tested first, in an instruction and in a word that is none. -/
theorem failedConditionIsNop : Obligations.FailedConditionIsNop := by
  unfold Obligations.FailedConditionIsNop
  refine ⟨?_, ?_, ?_, fun s k => step_of_interrupt⟩
  · intro i c s hcond hfail
    rw [exec_of_failed hcond hfail]
    exact ⟨advance_nop, advance_wrap⟩
  · intro s w hint ht hj hfetch hcond hfail
    rw [step_of_fetches hint ht hj hfetch, execWord_of_failed (s := s.tick) hcond hfail]
    exact ⟨advance_nop (s := s.tick), advance_wrap (s := s.tick)⟩
  · intro s hint ht hj hno
    rw [step_of_fetch hint ht hj, fetch_of_not_allowed hno]
    rfl

/-- Settles O7: the four bytes are the word fetched. -/
theorem stepRunsDecoded : Obligations.StepRunsDecoded := by
  unfold Obligations.StepRunsDecoded
  intro s b0 b1 b2 b3 i hfiq hirq ht hj hperm habort hwritten h0 h1 h2 h3 hdec
  rw [step_of_fetch (interrupt_none hfiq hirq) ht hj,
    fetch_of_read ⟨hperm, habort⟩ hwritten (readBytes_four h0 h1 h2 h3), wordOfLittle_four, afterFetch, execWord,
    show decodeWord (wordOfBytes b0 b1 b2 b3) = .instr i from hdec]

/-- Settles O9: the word decodes to no instruction, or the fetch gives no word. -/
theorem stepsWithoutInstruction : Obligations.StepsWithoutInstruction := by
  unfold Obligations.StepsWithoutInstruction
  intro s hint
  refine ⟨?_, ?_, ?_, ?_⟩
  · intro w ht hj hfetch hcond
    rw [step_of_fetches hint ht hj hfetch]
    constructor <;> intro hdec <;> simp only [execWord, hdec] <;> exact whenWordCond_pass (s := s.tick) _ hcond
  · intro ht
    rw [step_of_no_interrupt hint]
    exact if_pos ht
  · intro ht hj
    rw [step_of_no_interrupt hint]
    exact (if_neg (by rw [show s.tick.t = s.t from rfl, ht]; decide)).trans (if_pos hj)
  · intro ht hj hallowed
    rw [step_of_fetch hint ht hj]
    refine ⟨fun hw => by rw [fetch_of_written hallowed hw, afterFetch], fun hw ⟨k, hk, hnone⟩ => ?_⟩
    rw [fetch_of_unread hallowed hw (readBytes_none hk hnone), afterFetch]

end Sys2Proof.Proofs

/-! The register banks, memory bytes, exception entry and reset (10_state.md, 20_memory.md section 2, 60_exceptions.md,
70_reset_and_hazards.md section 1): one rule for each state operation these obligations read off. -/
namespace Sys2Proof.Proofs
open Sys2Proof Sys2Proof.Machine Sys2Proof.Laws

/-! ### Exception entry -/

/-- Each bit of the status register after exception entry (60_exceptions.md R548). -/
theorem getLsbD_entryPsr (k : ExceptionKind) (ee : Bool) (p : Word) (j : Nat) (hj : j < 32) (h5 : 5 ≤ j) :
    (entryPsr k ee p).getLsbD j =
      if j = 5 ∨ j = 24 then false else if j = 7 then true else if j = 9 then ee
      else if j = 6 then k.setsF || p.getLsbD j else if j = 8 then k.setsA || p.getLsbD j else p.getLsbD j := by
  have hmask : (0x1F : Word).getLsbD j = false := by
    interval_cases j <;> rfl
  have hmode : (withMode p k.mode).getLsbD j = p.getLsbD j := by
    rw [withMode, getLsbD_withMask _ _ _ _ hj, hmask]; rfl
  simp only [entryPsr]
  cases k.setsF <;> cases k.setsA <;>
    simp only [if_true, if_false, Bool.false_eq_true, Bool.true_or, Bool.false_or, getLsbD_withBit _ 5 _ _ (by omega) hj,
      getLsbD_withBit _ 24 _ _ (by omega) hj, getLsbD_withBit _ 7 _ _ (by omega) hj, getLsbD_withBit _ 6 _ _ (by omega) hj,
      getLsbD_withBit _ 8 _ _ (by omega) hj, getLsbD_withBit _ 9 _ _ (by omega) hj, hmode] <;>
    split_ifs <;> first | rfl | omega

/-- The registers after exception entry: R14 of the new mode is written, nothing else. -/
theorem takeException_gpr (k : ExceptionKind) (s : State) :
    (takeException k s).gpr = s.gpr.set (cell k.mode 14) (s.pc + k.link) := rfl

/-- Every mode an exception enters has an SPSR. -/
theorem spsrIndex_exceptionMode (k : ExceptionKind) : ∃ j, k.mode.spsrIndex = some j := by
  cases k <;> exact ⟨_, rfl⟩

/-- The SPSRs after exception entry: that of the new mode takes the CPSR, no other changes. -/
theorem takeException_spsr {k : ExceptionKind} {j : Fin 5} (h : k.mode.spsrIndex = some j) (s : State) :
    (takeException k s).spsr = s.spsr.set j s.cpsr := by
  simp only [takeException, State.setSpsrOf, h, setRegOf_spsr]

/-- A vector's entry just written. -/
theorem spsr_get_set_same (v : Vector Word 5) (j : Fin 5) (x : Word) : (v.set j x).get j = x :=
  Vector.getElem_set_self j.isLt

/-- Another entry than the one written. -/
theorem spsr_get_set_other (v : Vector Word 5) (j i : Fin 5) (x : Word) (h : i ≠ j) : (v.set j x).get i = v.get i :=
  Vector.getElem_set_ne j.isLt i.isLt fun e => h (Fin.ext e.symm)

/-- The bits of the status register that no exception entry changes. -/
theorem entryPsr_and_kept (k : ExceptionKind) (ee : Bool) (p : Word) :
    entryPsr k ee p &&& 0xFEFFFC00 = p &&& 0xFEFFFC00 := by
  apply BitVec.eq_of_getLsbD_eq
  intro j hj
  rw [BitVec.getLsbD_and, BitVec.getLsbD_and]
  by_cases hkept : (0xFEFFFC00 : Word).getLsbD j = true
  · rw [getLsbD_entryPsr k ee p j hj (by by_contra h; revert hkept; interval_cases j <;> decide)]
    have hne : j ≠ 5 ∧ j ≠ 6 ∧ j ≠ 7 ∧ j ≠ 8 ∧ j ≠ 9 ∧ j ≠ 24 := by
      refine ⟨?_, ?_, ?_, ?_, ?_, ?_⟩ <;> rintro rfl <;> revert hkept <;> decide
    obtain ⟨h5, h6, h7, h8, h9, h24⟩ := hne
    simp only [h5, h6, h7, h8, h9, h24, or_self, if_false]
  · rw [Bool.eq_false_of_not_eq_true hkept, Bool.and_false, Bool.and_false]

/-- Settles O21: entry writes R14 and the SPSR of the new mode, the listed bits of the CPSR and the PC. -/
theorem exceptionEntry : Obligations.ExceptionEntry := by
  unfold Obligations.ExceptionEntry
  intro k s t row
  have hrow : row = (k.mode, k.offset, k.link) := by cases k <;> rfl
  have hbit := getLsbD_entryPsr k s.platform.ee s.cpsr
  have hF : k.setsF = (k == .fiq) := by cases k <;> rfl
  have hA : k.setsA = (k != .undefinedInstruction && k != .softwareInterrupt) := by cases k <;> rfl
  obtain ⟨n, hn⟩ := spsrIndex_exceptionMode k
  rw [hrow]
  refine ⟨takeException_mode k s, rfl, ?_, ?_, hbit 5 (by decide) (by decide), hbit 24 (by decide) (by decide),
    hbit 7 (by decide) (by decide), ?_, ?_, hbit 9 (by decide) (by decide), entryPsr_and_kept k _ _, ?_, ?_, rfl, rfl, rfl, rfl⟩
  · rw [regOf_eq _ _ _ (by decide), takeException_gpr, get_set_same]
  · rw [hn, Option.map_some, takeException_spsr hn, spsr_get_set_same]
  · rw [Bool.or_comm, ← hF]; exact hbit 6 (by decide) (by decide)
  · rw [Bool.or_comm, ← hA]; exact hbit 8 (by decide) (by decide)
  · intro j hj
    rw [takeException_gpr, get_set_other _ _ _ _ hj]
  · intro j hj
    rw [takeException_spsr hn, spsr_get_set_other _ _ _ _ fun hji => hj (by rw [hn, hji])]

/-- Settles O8: the interrupt is chosen by the lines and the masks, and its entry is that of any exception. -/
theorem interruptsAreTaken : Obligations.InterruptsAreTaken := by
  unfold Obligations.InterruptsAreTaken
  intro s
  refine ⟨fun hline hmask => ?_, fun hline hmask hfiq => ?_, fun hfiq hirq => ?_⟩
  · obtain ⟨hmode, hpc, hlr, hspsr, -, -, hi, hf, ha, -⟩ := exceptionEntry .fiq s.tick
    refine ⟨_, step_of_interrupt (interrupt_fiq hline hmask), hmode, rfl, hlr, Option.some.inj hspsr, hi, ?_, ?_, rfl, rfl⟩
    · rw [hf]; exact Bool.or_true _
    · rw [ha]; exact Bool.or_true _
  · obtain ⟨hmode, hpc, hlr, hspsr, -, -, hi, hf, ha, -⟩ := exceptionEntry .irq s.tick
    refine ⟨_, step_of_interrupt (interrupt_irq hline hmask hfiq), hmode, rfl, hlr, Option.some.inj hspsr, hi, ?_, ?_, rfl,
      rfl⟩
    · rw [hf]; exact Bool.or_false _
    · rw [ha]; exact Bool.or_true _
  · have hnone := interrupt_none hfiq hirq
    exact ⟨hnone, step_of_no_interrupt hnone⟩

/-! ### Reset -/

/-- Settles O11. -/
theorem resetIsLegal : Obligations.ResetIsLegal := by
  unfold Obligations.ResetIsLegal
  exact {
    mem := rfl
    written := rfl
    inSpace := fun a ha => nomatch ha
    cpsr := by decide
    spsr := by decide
    mode := by decide
    pc := by decide }

/-- Settles O12. -/
theorem resetValues : Obligations.ResetValues := by
  unfold Obligations.ResetValues
  exact ⟨rfl, rfl, rfl, rfl, rfl, rfl, rfl, rfl, rfl, rfl, fun _ => rfl⟩

/-! ### The register banks -/

/-- Which register names of which modes share a cell (10_state.md R32). -/
theorem cell_eq_iff : ∀ (m k : Mode) (r q : Reg), r ≠ 15 → q ≠ 15 →
    (cell m r = cell k q ↔
      r = q ∧ (r.toNat < 8 ∨ (r.toNat < 13 ∧ (m = .fiq ↔ k = .fiq)) ∨ m = k ∨
        (m = .usr ∧ k = .sys) ∨ (m = .sys ∧ k = .usr))) := by
  intro m k
  cases m <;> cases k <;> decide

/-- Settles O19. -/
theorem registerBanks : Obligations.RegisterBanks := by
  unfold Obligations.RegisterBanks
  refine ⟨cell_eq_iff, fun s m r v hr => ?_, reg_pc⟩
  rw [regOf_eq _ _ _ hr, setRegOf_gpr _ _ _ _ hr, get_set_same]

/-! ### Stored bytes -/

/-- Byte `k` of the little-endian bytes of a value. -/
theorem getElem_littleOfWord (n : Nat) : ∀ (v : Word) (k : Nat) (hk : k < (littleOfWord v n).length),
    (littleOfWord v n)[k] = v.extractLsb' (8 * k) 8 := by
  induction n with
  | zero => intro v k hk; simp [littleOfWord] at hk
  | succ n ih =>
    intro v k hk
    cases k with
    | zero => 
      apply BitVec.eq_of_getLsbD_eq
      intro i hi
      simp [littleOfWord]
    | succ k =>
      simp only [littleOfWord, List.getElem_cons_succ, ih]
      apply BitVec.eq_of_getLsbD_eq
      intro i hi
      simp [hi, Nat.mul_add, Nat.add_comm, Nat.add_left_comm]

/-- Byte `k` of a value as stored in one of the two byte orders (20_memory.md R74). -/
theorem getElem_disassemble (e : Bool) (n : Nat) (v : Word) (k : Nat) (hk : k < (disassemble e n v).length) :
    (disassemble e n v)[k] = v.extractLsb' (8 * (if e then n - 1 - k else k)) 8 := by
  cases e with
  | false => exact getElem_littleOfWord n v k (by simpa using hk)
  | true =>
    simp only [disassemble, if_true, List.getElem_reverse, littleOfWord_length, getElem_littleOfWord]

/-- The value of the low `n` bytes of a word. -/
theorem wordOfLittle_littleOfWord (n : Nat) (hn : n ≤ 4) (v : Word) :
    wordOfLittle (littleOfWord v n) = v &&& BitVec.ofNat 32 (2 ^ (8 * n) - 1) := by
  apply BitVec.eq_of_getLsbD_eq
  intro i hi
  interval_cases n <;>
    simp only [littleOfWord, wordOfLittle] <;> interval_cases i <;> simp

/-- What is stored in one byte order is read back in it (R74). -/
theorem assemble_disassemble (e : Bool) (n : Nat) (hn : n ≤ 4) (v : Word) :
    assemble e (disassemble e n v) = v &&& BitVec.ofNat 32 (2 ^ (8 * n) - 1) := by
  cases e <;> simp [assemble, disassemble, wordOfLittle_littleOfWord n hn]

/-- Settles O20. -/
theorem storedBytesReadBack : Obligations.StoredBytesReadBack := by
  unfold Obligations.StoredBytesReadBack
  intro m a n e v hn
  refine ⟨fun k hk => ?_, ?_, fun x hx => ?_⟩
  · rw [read_writeBytes_inside _ m a k (by simpa using hk), getElem_disassemble]
  · rw [readBytes_writeBytes_same _ m a (disassemble_length e n v), Option.map_some, assemble_disassemble e n hn v]
  · exact read_writeBytes_outside _ m a x (by simpa using hx)

end Sys2Proof.Proofs

/-! The shifter operands in integers (42_data_processing.md R201 to R204): one fact for each kind of shift, then the cases of
the amount. -/
namespace Sys2Proof.Proofs
open Sys2Proof Sys2Proof.Machine Sys2Proof.Laws

/-! ### The kinds of shift -/

/-- What a rotation right by `m` brings in at the top: the `m` bottom bits. -/
theorem shifted_in (x : Nat) {m : Nat} (hm : m ≤ 32) : x * 2 ^ (32 - m) % 2 ^ 32 = 2 ^ (32 - m) * (x % 2 ^ m) := by
  have hsplit : 2 ^ 32 = 2 ^ (32 - m) * 2 ^ m := by rw [← pow_add, Nat.sub_add_cancel hm]
  rw [hsplit, Nat.mul_comm x, Nat.mul_mod_mul_left]

/-- A rotation right in integers: what is shifted out at the bottom comes in at the top. -/
theorem ror_toNat (v : Word) {m : Nat} (hm : m < 32) :
    (ror v m).toNat = v.toNat / 2 ^ m + v.toNat * 2 ^ (32 - m) % 2 ^ 32 := by
  have hlow : v.toNat / 2 ^ m < 2 ^ (32 - m) := by
    rw [Nat.div_lt_iff_lt_mul (by positivity), ← pow_add, Nat.sub_add_cancel hm.le]
    exact v.isLt
  rw [ror, BitVec.rotateRight_def, Nat.mod_eq_of_lt hm, BitVec.toNat_or, BitVec.toNat_ushiftRight, BitVec.toNat_shiftLeft,
    Nat.shiftRight_eq_div_pow, Nat.shiftLeft_eq, shifted_in _ hm.le, Nat.or_comm, ← Nat.two_pow_add_eq_or_of_lt hlow,
    Nat.add_comm]

/-- Each bit of a rotation right. -/
theorem getLsbD_ror (v : Word) {m i : Nat} (hm : m < 32) (hi : i < 32) :
    (ror v m).getLsbD i = v.getLsbD ((i + m) % 32) := by
  rw [ror, BitVec.getLsbD_rotateRight, Nat.mod_eq_of_lt hm, decide_eq_true hi, Bool.true_and]
  by_cases h : i < 32 - m
  · rw [decide_eq_true h, cond_true, Nat.mod_eq_of_lt (by omega), Nat.add_comm]
  · rw [decide_eq_false h, cond_false]
    congr 1
    omega

/-- Bit 31 of a word says that its value is in the upper half. -/
theorem getLsbD_31 (v : Word) : v.getLsbD 31 = decide (2 ^ 31 ≤ v.toNat) :=
  (BitVec.msb_eq_getLsbD_last v).symm.trans (BitVec.msb_eq_decide v)

/-- Bit 31 of a word is its sign. -/
theorem getLsbD_31_sign (v : Word) : v.getLsbD 31 = decide (v.toInt < 0) :=
  (BitVec.msb_eq_getLsbD_last v).symm.trans BitVec.msb_eq_toInt

/-- 32 copies of the sign. -/
theorem signWord_toInt (v : Word) : (signWord v).toInt = if v.toInt < 0 then -1 else 0 := by
  rw [signWord, getLsbD_31_sign]
  by_cases h : v.toInt < 0 <;> simp [h]

/-- An arithmetic shift right divides, rounding down. -/
theorem sshiftRight_toInt (v : Word) (n : Nat) : (v.sshiftRight n).toInt = v.toInt / 2 ^ n := by
  rw [BitVec.toInt_sshiftRight, Int.shiftRight_eq_div_pow]; rfl

/-- A shift left multiplies modulo 2^32. -/
theorem shiftLeft_toNat (v : Word) (n : Nat) : (v <<< n).toNat = v.toNat * 2 ^ n % 2 ^ 32 := by
  rw [BitVec.toNat_shiftLeft, Nat.shiftLeft_eq]

/-- A logical shift right divides. -/
theorem ushiftRight_toNat (v : Word) (n : Nat) : (v >>> n).toNat = v.toNat / 2 ^ n := by
  rw [BitVec.toNat_ushiftRight, Nat.shiftRight_eq_div_pow]

/-- RRX brings the carry in at the top. -/
theorem rrx_toNat (c : Bool) (v : Word) : (rrx c v).toNat = (if c then 2 ^ 31 else 0) + v.toNat / 2 := by
  have hlow : v.toNat / 2 < 2 ^ 31 := by have := v.isLt; omega
  cases c with
  | false => rw [rrx, BitVec.toNat_or, ushiftRight_toNat]; simp
  | true =>
    rw [rrx, BitVec.toNat_or, ushiftRight_toNat]
    exact (Nat.two_pow_add_eq_or_of_lt hlow 1).symm

/-! ### An immediate amount -/

/-- A register shifted by the amount 0: unchanged, or shifted by 32, or rotated through C (R203). -/
theorem shiftImm_zero (c : Bool) (rm : Word) {imm5 : BitVec 5} (h : imm5.toNat = 0) :
    shiftImm c rm .lsl imm5 = ⟨rm, c⟩ ∧ shiftImm c rm .lsr imm5 = ⟨0, rm.getLsbD 31⟩ ∧
      shiftImm c rm .asr imm5 = ⟨signWord rm, rm.getLsbD 31⟩ ∧ shiftImm c rm .ror imm5 = ⟨rrx c rm, rm.getLsbD 0⟩ := by
  simp [shiftImm, h]

/-- A register shifted by another amount (R202). -/
theorem shiftImm_pos (c : Bool) (rm : Word) {imm5 : BitVec 5} (h : imm5.toNat ≠ 0) :
    shiftImm c rm .lsl imm5 = ⟨rm <<< imm5.toNat, rm.getLsbD (32 - imm5.toNat)⟩ ∧
      shiftImm c rm .lsr imm5 = ⟨rm >>> imm5.toNat, rm.getLsbD (imm5.toNat - 1)⟩ ∧
      shiftImm c rm .asr imm5 = ⟨rm.sshiftRight imm5.toNat, rm.getLsbD (imm5.toNat - 1)⟩ ∧
      shiftImm c rm .ror imm5 = ⟨ror rm imm5.toNat, rm.getLsbD (imm5.toNat - 1)⟩ := by
  simp [shiftImm, h]

/-- The value of an immediate shifter operand in integers (R201). -/
theorem shifterImm_toNat (c : Bool) (rot : BitVec 4) (imm8 : BitVec 8) :
    (shifterImm c rot imm8).value.toNat = if rot = 0 then imm8.toNat
      else imm8.toNat / 2 ^ (2 * rot.toNat) + imm8.toNat * 2 ^ (32 - 2 * rot.toNat) % 2 ^ 32 := by
  have hrot : 2 * rot.toNat < 32 := by have := rot.isLt; omega
  have himm : (imm8.setWidth 32).toNat = imm8.toNat := BitVec.toNat_setWidth_of_le (by decide)
  rw [shifterImm, ror_toNat _ hrot, himm]
  split_ifs with h
  · subst h; simp
  · rfl

/-- Settles O22: the value of each kind of shift, the amount 0 being its own case. -/
theorem shiftByImmediate : Obligations.ShiftByImmediate := by
  unfold Obligations.ShiftByImmediate
  intro c rm imm5 n
  refine ⟨fun hn => ?_, fun hn => ?_, fun rot imm8 => ⟨shifterImm_toNat c rot imm8, ?_⟩⟩
  · obtain ⟨hlsl, hlsr, hasr, hror⟩ := shiftImm_zero c rm hn
    rw [hasr, hror]
    exact ⟨hlsl, hlsr, signWord_toInt rm, rfl, rrx_toNat c rm, rfl⟩
  · obtain ⟨hlsl, hlsr, hasr, hror⟩ := shiftImm_pos c rm hn
    rw [hlsl, hlsr, hasr, hror]
    exact ⟨shiftLeft_toNat rm n, rfl, ushiftRight_toNat rm n, rfl, sshiftRight_toInt rm n, rfl,
      fun i hi => getLsbD_ror rm imm5.isLt hi, rfl⟩
  · rw [← shifterImm_toNat c rot imm8, ← getLsbD_31]
    rfl

/-! ### An amount from a register -/

/-- A value below 2^32 has no bits from 32 up. -/
theorem toNat_div_pow {v : Word} {n : Nat} (h : 32 ≤ n) : v.toNat / 2 ^ n = 0 :=
  Nat.div_eq_of_lt (v.isLt.trans_le (Nat.pow_le_pow_right (by decide) h))

/-- Multiplying by 2^32 or more leaves nothing of the low 32 bits. -/
theorem mul_pow_mod (x : Nat) {n : Nat} (h : 32 ≤ n) : x * 2 ^ n % 2 ^ 32 = 0 :=
  Nat.mod_eq_zero_of_dvd (Dvd.dvd.mul_left (Nat.pow_dvd_pow 2 h) x)

/-- The bit that a shift left by `n` moves to place 32. -/
theorem carry_of_lsl (v : Word) {n : Nat} (h : n ≤ 32) :
    decide (v.toNat * 2 ^ n / 2 ^ 32 % 2 = 1) = v.getLsbD (32 - n) := by
  have hsplit : v.toNat * 2 ^ n / 2 ^ 32 = v.toNat / 2 ^ (32 - n) := by
    rw [show 2 ^ 32 = 2 ^ (32 - n) * 2 ^ n by rw [← pow_add, Nat.sub_add_cancel h], Nat.mul_div_mul_right _ _ (by positivity)]
  rw [hsplit, BitVec.getLsbD, Nat.testBit_eq_decide_div_mod_eq]

/-- No bit of a 32-bit value reaches place 32 by a shift left by more than 32. -/
theorem carry_of_lsl_large (v : Word) {n : Nat} (h : 32 < n) : decide (v.toNat * 2 ^ n / 2 ^ 32 % 2 = 1) = false := by
  have hsplit : v.toNat * 2 ^ n / 2 ^ 32 = v.toNat * 2 ^ (n - 33) * 2 := by
    rw [show 2 ^ n = 2 ^ (n - 33) * 2 * 2 ^ 32 by rw [mul_assoc, ← pow_succ', ← pow_add]; congr 1; omega, ← mul_assoc,
      ← mul_assoc, Nat.mul_div_cancel _ (by positivity)]
  rw [hsplit, Nat.mul_mod_left]; rfl

/-- An integer of 32 bits divided by 2^32 or more is 0 or, negative, -1. -/
theorem toInt_div_pow (v : Word) {n : Nat} (h : 32 ≤ n) : v.toInt / 2 ^ n = if v.toInt < 0 then -1 else 0 := by
  have hpow : (2 : Int) ^ 32 ≤ 2 ^ n := pow_le_pow_right₀ (by decide) h
  have hlt : v.toInt < 2 ^ 31 := by have := BitVec.toInt_lt (x := v); simpa using this
  have hge : -2 ^ 31 ≤ v.toInt := by have := BitVec.le_toInt (x := v); simpa using this
  split_ifs with hneg
  · rw [Int.ediv_eq_iff_of_pos (by positivity)]
    constructor <;> omega
  · exact Int.ediv_eq_zero_of_lt (by omega) (by omega)

/-- LSL by a register (R204). -/
theorem shiftReg_lsl (c : Bool) (rm : Word) {n : Nat} (h0 : n ≠ 0) :
    (shiftReg c rm .lsl n).value.toNat = rm.toNat * 2 ^ n % 2 ^ 32 ∧
      (shiftReg c rm .lsl n).carry = decide (rm.toNat * 2 ^ n / 2 ^ 32 % 2 = 1) := by
  simp only [shiftReg, if_neg h0]
  split_ifs with hlt heq
  · exact ⟨shiftLeft_toNat rm n, (carry_of_lsl rm hlt.le).symm⟩
  · subst heq
    exact ⟨(mul_pow_mod _ le_rfl).symm, (carry_of_lsl rm le_rfl).symm⟩
  · exact ⟨(mul_pow_mod _ (by omega)).symm, (carry_of_lsl_large rm (by omega)).symm⟩

/-- LSR by a register (R204). -/
theorem shiftReg_lsr (c : Bool) (rm : Word) {n : Nat} (h0 : n ≠ 0) :
    (shiftReg c rm .lsr n).value.toNat = rm.toNat / 2 ^ n ∧ (shiftReg c rm .lsr n).carry = rm.getLsbD (n - 1) := by
  simp only [shiftReg, if_neg h0]
  split_ifs with hlt heq
  · exact ⟨ushiftRight_toNat rm n, rfl⟩
  · subst heq
    exact ⟨(toNat_div_pow le_rfl).symm, rfl⟩
  · exact ⟨(toNat_div_pow (by omega)).symm, (BitVec.getLsbD_of_ge rm _ (by omega)).symm⟩

/-- ASR by a register (R204). -/
theorem shiftReg_asr (c : Bool) (rm : Word) {n : Nat} (h0 : n ≠ 0) :
    (shiftReg c rm .asr n).value.toInt = rm.toInt / 2 ^ n ∧
      (shiftReg c rm .asr n).carry = rm.getLsbD (min (n - 1) 31) := by
  simp only [shiftReg, if_neg h0]
  split_ifs with hlt
  · exact ⟨sshiftRight_toInt rm n, by rw [Nat.min_eq_left (by omega)]⟩
  · exact ⟨(signWord_toInt rm).trans (toInt_div_pow rm (by omega)).symm, by rw [Nat.min_eq_right (by omega)]⟩

/-- ROR by a register (R204). -/
theorem shiftReg_ror (c : Bool) (rm : Word) {n : Nat} (h0 : n ≠ 0) :
    (∀ i < 32, (shiftReg c rm .ror n).value.getLsbD i = rm.getLsbD ((i + n) % 32)) ∧
      (shiftReg c rm .ror n).carry = rm.getLsbD ((n + 31) % 32) := by
  simp only [shiftReg, if_neg h0]
  split_ifs with hmod
  · exact ⟨fun i hi => by rw [show (i + n) % 32 = i by omega], by rw [show (n + 31) % 32 = 31 by omega]⟩
  · exact ⟨fun i hi => by rw [getLsbD_ror rm (Nat.mod_lt n (by decide)) hi, Nat.add_mod_mod],
      by rw [show (n + 31) % 32 = n % 32 - 1 by omega]⟩

/-- Settles O23: below 32 as by an immediate, from 32 up by what is left of the value. -/
theorem shiftByRegister : Obligations.ShiftByRegister := by
  unfold Obligations.ShiftByRegister
  intro c rm n _
  refine ⟨fun h0 ty => if_pos h0, fun h0 => ?_⟩
  obtain ⟨hlsl, hlslc⟩ := shiftReg_lsl c rm h0
  obtain ⟨hlsr, hlsrc⟩ := shiftReg_lsr c rm h0
  obtain ⟨hasr, hasrc⟩ := shiftReg_asr c rm h0
  obtain ⟨hror, hrorc⟩ := shiftReg_ror c rm h0
  exact ⟨hlsl, hlslc, hlsr, hlsrc, hasr, hasrc, hror, hrorc⟩

end Sys2Proof.Proofs

/-! The data-processing instructions (42_data_processing.md): each form is one call of `dpOperate` (`exec_dp`), whose result is
that of `dpCompute`; the carries, borrows and overflows of `dpCompute` are facts of the integers (`outside32_iff`). -/
namespace Sys2Proof.Proofs
open Sys2Proof Sys2Proof.Machine Sys2Proof.Laws

/-! ### One meaning for all forms -/

/-- The operations without a destination, which always write the flags (42_data_processing.md R200). -/
def isCompare : DpOp → Bool
  | .tst | .teq | .cmp | .cmn => true
  | _ => false

/-- The destination field; the compares have none. -/
def destField (op : DpOp) (rd : Reg) : Option Reg := if isCompare op then none else some rd

/-- R15 is checked for in the form with a shift by a register only (R204). -/
def guarded (o : Operand2) (regs : List Reg) (out : Out) : Out :=
  match o with
  | .reg rs _ rm => unlessPc (regs ++ [rs, rm]) out
  | .shift _ _ _ => out
  | .imm _ _ => out

/-- Where the form allows its registers nothing is checked. -/
theorem guarded_of_allows {o : Operand2} {regs : List Reg} (out : Out) (h : o.allows regs = true) :
    guarded o regs out = out := by
  cases o with
  | reg rs ty rm => exact unlessPc_of out (by simpa [Operand2.allows] using h)
  | shift imm5 ty rm => rfl
  | imm rot imm8 => rfl

/-- Every data-processing instruction is its condition, the check of its form and one `dpOperate`. -/
theorem exec_dp (op : DpOp) (o : Operand2) (c : Cond) (sf : Bool) (rn rd : Reg) (s : State) :
    exec (dpForm op o c sf rn rd) s =
      whenCond c s (guarded o ((firstField op rn).toList ++ (destField op rd).toList)
        (dpOperate op s (isCompare op || sf) (firstField op rn) (destField op rd) (o.value s))) := by
  cases op <;> cases o <;> rfl

/-! ### The result written -/

/-- Writing a destination other than R15 is the state after (R206, R208). -/
theorem dpWrite_after {s : State} {r : DpResult} {rd : Reg} (sf : Bool) (hpc : s.pc.toNat + 4 < 2 ^ 32) (hrd : rd ≠ 15) :
    dpWrite s sf (some rd) r = .next (s.after rd r.value (withFlags s.cpsr sf r.value r.c r.v)) := by
  rw [dpWrite, if_neg hrd]
  cases sf
  · rw [if_neg Bool.false_ne_true, advance_of_lt (by exact hpc), setReg_eq _ _ _ hrd]; rfl
  · rw [if_pos rfl, advance_of_lt (by exact hpc), setReg_eq _ _ _ hrd]; rfl

/-- A compare writes the flags. -/
theorem dpWrite_flags {s : State} {r : DpResult} (sf : Bool) (hpc : s.pc.toNat + 4 < 2 ^ 32) :
    dpWrite s sf none r = .next
      { s with cpsr := withNzcv s.cpsr (r.value.getLsbD 31) (r.value == 0) r.c r.v, pc := s.pc + 4 } := by
  rw [dpWrite, advance_of_lt (by exact hpc)]; rfl

/-- An operation with a destination other than R15, its condition passing and its registers allowed. -/
theorem exec_dp_after {op : DpOp} {o : Operand2} {c : Cond} {sf : Bool} {rn rd : Reg} {s : State} (hop : isCompare op = false)
    (hruns : Runs c s) (hrd : rd ≠ 15) (hallow : o.allows ((firstField op rn).toList ++ [rd]) = true) :
    let r := dpCompute op (firstOperand s (firstField op rn)) (o.value s) s.c s.v
    exec (dpForm op o c sf rn rd) s = .next (s.after rd r.value (withFlags s.cpsr sf r.value r.c r.v)) := by
  intro r
  obtain ⟨hcond, hpc⟩ := hruns
  have hdest : destField op rd = some rd := by rw [destField, hop]; rfl
  rw [exec_dp, whenCond_pass _ hcond, hdest, Option.toList_some, guarded_of_allows _ hallow, hop, dpOperate,
    dpWrite_after _ hpc hrd, Bool.false_or]

/-- A compare, its condition passing and its registers allowed. -/
theorem exec_dp_flags {op : DpOp} {o : Operand2} {c : Cond} {sf : Bool} {rn rd : Reg} {s : State} (hop : isCompare op = true)
    (hruns : Runs c s) (hallow : o.allows [rn] = true) :
    let r := dpCompute op (s.reg rn) (o.value s) s.c s.v
    exec (dpForm op o c sf rn rd) s = .next
      { s with cpsr := withNzcv s.cpsr (r.value.getLsbD 31) (r.value == 0) r.c r.v, pc := s.pc + 4 } := by
  obtain ⟨hcond, hpc⟩ := hruns
  have hdest : destField op rd = none := by rw [destField, hop]; rfl
  have hfirst : firstField op rn = some rn := by cases op <;> first | rfl | cases hop
  rw [exec_dp, whenCond_pass _ hcond, hdest, hfirst]
  rw [guarded_of_allows _ (by simpa using hallow), dpOperate, dpWrite_flags _ hpc]
  rfl

/-- Settles O24: the result is the operation's, the carry the shifter's. -/
theorem logicalResults : Obligations.LogicalResults := by
  unfold Obligations.LogicalResults
  intro o c sf rn rd s hruns hrd so done
  refine ⟨fun hallow => ⟨?_, ?_, ?_, ?_⟩, fun hallow => ⟨?_, ?_⟩⟩ <;> exact exec_dp_after rfl hruns hrd hallow

/-! ### Carry, borrow and overflow -/

/-- An integer is outside the signed range of 32 bits exactly where wrapping changes it. -/
theorem outside32_iff (r : Int) : outside32 r = decide ((BitVec.ofInt 32 r).toInt ≠ r) := by
  rw [outside32, BitVec.toInt_ofInt]
  apply decide_eq_decide.2
  rw [Int.bmod_def]
  split_ifs <;> omega

/-- A difference wraps as its parts do. -/
theorem ofInt_sub (w : Nat) (a b : Int) : BitVec.ofInt w (a - b) = BitVec.ofInt w a - BitVec.ofInt w b := by
  rw [Int.sub_eq_add_neg, BitVec.ofInt_add, BitVec.ofInt_neg, BitVec.sub_eq_add_neg]

/-- A bit as a word has the bit's value, read as either kind of integer. -/
theorem toNat_bit (b : Bool) : (if b then 1 else 0 : Word).toNat = b.toNat ∧ (if b then 1 else 0 : Word).toInt = b.toNat := by
  cases b <;> decide

/-- The result and flags of an addition, with the bit added as a word (R207). -/
theorem addResult_eq (a b : Word) (cin : Bool) :
    let k : Word := if cin then 1 else 0
    addResult a b cin = ⟨a + b + k, decide (2 ^ 32 ≤ a.toNat + b.toNat + k.toNat),
      decide ((a + b + k).toInt ≠ a.toInt + b.toInt + k.toInt)⟩ := by
  intro k
  obtain ⟨hk, hki⟩ : k.toNat = cin.toNat ∧ k.toInt = cin.toNat := toNat_bit cin
  have hvalue : BitVec.ofNat 32 (a.toNat + b.toNat + cin.toNat) = a + b + k := by
    rw [← hk, BitVec.ofNat_add, BitVec.ofNat_add, BitVec.ofNat_toNat, BitVec.ofNat_toNat, BitVec.ofNat_toNat]; simp
  have hint : BitVec.ofInt 32 (a.toInt + b.toInt + k.toInt) = a + b + k := by
    rw [BitVec.ofInt_add, BitVec.ofInt_add, BitVec.ofInt_toInt, BitVec.ofInt_toInt, BitVec.ofInt_toInt]
  rw [addResult, hvalue, carryFrom, overflowFromAdd, ← hki, outside32_iff, hint, hk]

/-- The result and flags of a subtraction, with the bit subtracted as a word (R207). -/
theorem subResult_eq (a b : Word) (bin : Bool) :
    let l : Word := if bin then 1 else 0
    subResult a b bin = ⟨a - b - l, decide (b.toNat + l.toNat ≤ a.toNat),
      decide ((a - b - l).toInt ≠ a.toInt - b.toInt - l.toInt)⟩ := by
  intro l
  obtain ⟨hl, hli⟩ : l.toNat = bin.toNat ∧ l.toInt = bin.toNat := toNat_bit bin
  have hint : BitVec.ofInt 32 (a.toInt - b.toInt - l.toInt) = a - b - l := by
    rw [ofInt_sub, ofInt_sub, BitVec.ofInt_toInt, BitVec.ofInt_toInt, BitVec.ofInt_toInt]
  have hvalue : BitVec.ofInt 32 ((a.toNat : Int) - b.toNat - bin.toNat) = a - b - l := by
    rw [← hl, ofInt_sub, ofInt_sub, BitVec.ofInt_natCast, BitVec.ofInt_natCast, BitVec.ofInt_natCast,
      BitVec.ofNat_toNat, BitVec.ofNat_toNat, BitVec.ofNat_toNat]; simp
  have hborrow : (!borrowFrom a b bin) = decide (b.toNat + l.toNat ≤ a.toNat) := by
    rw [borrowFrom, ← hl, ← decide_not]
    exact decide_eq_decide.2 Nat.not_lt
  rw [subResult, hvalue, hborrow, overflowFromSub, ← hli, outside32_iff, hint]

/-- An addition without a bit added. -/
theorem addResult_false (a b : Word) : addResult a b false =
    ⟨a + b, decide (2 ^ 32 ≤ a.toNat + b.toNat), decide ((a + b).toInt ≠ a.toInt + b.toInt)⟩ := by
  simpa using addResult_eq a b false

/-- A subtraction without a bit subtracted. -/
theorem subResult_false (a b : Word) : subResult a b false =
    ⟨a - b, decide (b.toNat ≤ a.toNat), decide ((a - b).toInt ≠ a.toInt - b.toInt)⟩ := by
  simpa using subResult_eq a b false

/-- The bit of NOT C. -/
theorem bit_not (c : Bool) : (if !c then 1 else 0 : Word) = if c then 0 else 1 := by cases c <;> rfl

/-- An operation of a register and the second operand, from the result and flags it computes. -/
theorem exec_dp_of_compute {op : DpOp} {o : Operand2} {c : Cond} (sf : Bool) {rn rd : Reg} {s : State} {v : Word} {cf vf : Bool}
    (hop : isCompare op = false) (hfirst : firstField op rn = some rn) (hruns : Runs c s) (hrd : rd ≠ 15)
    (hallow : o.allows [rn, rd] = true) (hcompute : dpCompute op (s.reg rn) (o.value s) s.c s.v = ⟨v, cf, vf⟩) :
    exec (dpForm op o c sf rn rd) s = .next (s.after rd v (withFlags s.cpsr sf v cf vf)) := by
  have h := exec_dp_after (sf := sf) (rn := rn) hop hruns hrd (by rw [hfirst]; exact hallow)
  rw [hfirst, show firstOperand s (some rn) = s.reg rn from rfl, hcompute] at h
  exact h

/-- Settles O25. -/
theorem arithmeticResults : Obligations.ArithmeticResults := by
  unfold Obligations.ArithmeticResults
  intro o c sf rn rd s hruns hrd hallow a b k l done
  have hl : (if !s.c then 1 else 0 : Word) = l := bit_not s.c
  have hadc := addResult_eq a b s.c
  have hsbc := subResult_eq a b (!s.c)
  have hrsc := subResult_eq b a (!s.c)
  simp only [hl] at hsbc hrsc
  exact ⟨exec_dp_of_compute sf rfl rfl hruns hrd hallow (addResult_false a b),
    exec_dp_of_compute sf rfl rfl hruns hrd hallow hadc,
    exec_dp_of_compute sf rfl rfl hruns hrd hallow (subResult_false a b),
    exec_dp_of_compute sf rfl rfl hruns hrd hallow hsbc,
    exec_dp_of_compute sf rfl rfl hruns hrd hallow (subResult_false b a),
    exec_dp_of_compute sf rfl rfl hruns hrd hallow hrsc⟩

/-- Settles O26. -/
theorem compareResults : Obligations.CompareResults := by
  unfold Obligations.CompareResults
  intro o c sf rn rd s hruns hallow a so b done
  refine ⟨exec_dp_flags rfl hruns hallow, exec_dp_flags rfl hruns hallow, ?_, ?_⟩
  · have h := exec_dp_flags (op := .cmp) (sf := sf) (rd := rd) rfl hruns hallow
    rwa [show dpCompute .cmp (s.reg rn) (o.value s) s.c s.v = subResult a b false from rfl, subResult_false] at h
  · have h := exec_dp_flags (op := .cmn) (sf := sf) (rd := rd) rfl hruns hallow
    rwa [show dpCompute .cmn (s.reg rn) (o.value s) s.c s.v = addResult a b false from rfl, addResult_false] at h

/-! ### Return from an exception -/

/-- With S and R15 the SPSR of the mode is restored (R208). -/
theorem dpWrite_return (s : State) (r : DpResult) : dpWrite s true (some 15) r =
    match s.spsr? with
    | some psr => exceptionReturn s psr r.value
    | none => .fault .noSpsr := rfl

/-- Settles O28: the result is the one the same instruction leaves in R0. -/
theorem dataProcessingReturns : Obligations.DataProcessingReturns := by
  unfold Obligations.DataProcessingReturns
  intro op o c rn s t hop hruns hreg hnext
  obtain ⟨hcond, -⟩ := hruns
  rw [exec_dpForm hop hreg, whenCond_pass _ hcond, dpOperate] at hnext ⊢
  have hresult := reg_of_dpWrite (by decide) hnext
  rw [hresult, dpWrite_return]
  refine ⟨fun psr hspsr hlegal => ?_, fun psr hspsr hillegal => ?_, fun hspsr => ?_⟩
  · rw [hspsr]; exact exceptionReturn_of _ hlegal
  · rw [hspsr]; exact exceptionReturn_illegal _ hillegal
  · rw [hspsr]

end Sys2Proof.Proofs

/-! The multiplies (43_multiply.md): the three ways a result is written (`mulWrite`, `sumWrite`, `longWrite`), the products of
parts in integers, and the wrap of an integer into a word. -/
namespace Sys2Proof.Proofs
open Sys2Proof Sys2Proof.Machine Sys2Proof.Laws

/-! ### Writing the result -/

/-- A 32-bit result, with flags where S (43_multiply.md R261 e). -/
theorem mulWrite_after {s : State} {rd : Reg} (sf : Bool) (v : Word) (hpc : s.pc.toNat + 4 < 2 ^ 32) (hrd : rd ≠ 15) :
    mulWrite s sf rd v = .next (s.after rd v (withFlags s.cpsr sf v s.c s.v)) := by
  cases sf <;> rw [mulWrite, advance_of_lt (by exact hpc), setReg_eq _ _ _ hrd] <;> rfl

/-- Q set in a status register. -/
theorem withBit_27 (p : Word) (q : Bool) : (if q then withBit p 27 true else p) = stickyQ p q := by
  cases q <;> rfl

/-- A wrapped sum, with Q where it does not fit (R270). -/
theorem sumWrite_after {s : State} {rd : Reg} (r : Int) (hpc : s.pc.toNat + 4 < 2 ^ 32) (hrd : rd ≠ 15) :
    sumWrite s rd r = .next (s.after rd (BitVec.ofInt 32 r) (stickyQ s.cpsr (!decide (-2 ^ 31 ≤ r ∧ r < 2 ^ 31)))) := by
  have hfits : (!decide (-2 ^ 31 ≤ r ∧ r < 2 ^ 31)) = outside32 r := by
    rw [outside32, ← decide_not]
    apply decide_eq_decide.2
    omega
  rw [sumWrite, advance_of_lt (by exact hpc), setReg_eq _ _ _ hrd, hfits, ← withBit_27]
  rfl

/-- A 64-bit result, with flags where S (R284). -/
theorem longWrite_after {s : State} {hi lo : Reg} (sf : Bool) (p : BitVec 64) (hpc : s.pc.toNat + 4 < 2 ^ 32) (hhi : hi ≠ 15)
    (hlo : lo ≠ 15) : longWrite s sf hi lo p =
      .next (s.afterPair hi lo p (if sf then withNzcv s.cpsr (p.getLsbD 63) (p == 0) s.c s.v else s.cpsr)) := by
  have hlow : p.extractLsb' 0 32 = p.setWidth 32 := by
    apply BitVec.eq_of_getLsbD_eq; intro i hi; simp [hi]
  have hhigh : p.extractLsb' 32 32 = (p >>> 32).setWidth 32 := by
    apply BitVec.eq_of_getLsbD_eq; intro i hi; simp [hi]
  cases sf <;>
    rw [longWrite, advance_of_lt (by exact hpc), setReg_eq _ _ _ hlo, setReg_eq _ _ _ hhi, hlow, hhigh] <;> rfl

/-! ### A multiply whose condition passes and whose registers are allowed -/

/-- Three registers none of which is R15. -/
theorem anyPc_three {a b c : Reg} (ha : a ≠ 15) (hb : b ≠ 15) (hc : c ≠ 15) : anyPc [a, b, c] = false :=
  anyPc_false_iff.2 (List.forall_mem_cons.2 ⟨ha, List.forall_mem_cons.2 ⟨hb, List.forall_mem_singleton.2 hc⟩⟩)

/-- Four registers none of which is R15. -/
theorem anyPc_four {a b c d : Reg} (ha : a ≠ 15) (hb : b ≠ 15) (hc : c ≠ 15) (hd : d ≠ 15) : anyPc [a, b, c, d] = false :=
  anyPc_false_iff.2 (List.forall_mem_cons.2 ⟨ha, anyPc_false_iff.1 (anyPc_three hb hc hd)⟩)

theorem mulOp_of {c : Cond} {s : State} {regs : List Reg} (o : Out) (hcond : conditionPassed c s = true)
    (hregs : anyPc regs = false) : mulOp c regs s o = o := by
  rw [mulOp, whenCond_pass _ hcond, unlessPc_of _ hregs]

theorem longOp_of {c : Cond} {s : State} {hi lo rs rm : Reg} (o : Out) (hcond : conditionPassed c s = true)
    (hregs : anyPc [hi, lo, rs, rm] = false) (hne : hi ≠ lo) : longOp c hi lo rs rm s o = o := by
  rw [longOp, whenCond_pass _ hcond, unlessPc_of _ hregs, unlessSame_of _ hne]

/-- Settles O29. -/
theorem multiplyResults : Obligations.MultiplyResults := by
  unfold Obligations.MultiplyResults
  rintro c sf rd rn rs rm s ⟨hcond, hpc⟩ hrd hrs hrm done
  exact ⟨(mulOp_of _ hcond (anyPc_three hrd hrs hrm)).trans (mulWrite_after sf _ hpc hrd),
    fun hrn => (mulOp_of _ hcond (anyPc_four hrd hrn hrs hrm)).trans (mulWrite_after sf _ hpc hrd)⟩

/-! ### Long products -/

/-- The bounds of a word as an integer. -/
theorem toInt_bounds (v : Word) : -2 ^ 31 ≤ v.toInt ∧ v.toInt < 2 ^ 31 :=
  ⟨BitVec.le_toInt (x := v), BitVec.toInt_lt (x := v)⟩

/-- A product of two words, with two more words added, is below 2^64. -/
theorem product_lt (a b x y : Word) : a.toNat * b.toNat + x.toNat + y.toNat < 2 ^ 64 := by
  have hprod : a.toNat * b.toNat ≤ (2 ^ 32 - 1) * (2 ^ 32 - 1) :=
    Nat.mul_le_mul (Nat.le_sub_one_of_lt a.isLt) (Nat.le_sub_one_of_lt b.isLt)
  have hx := x.isLt
  have hy := y.isLt
  omega

/-- A product of two words read as signed fits 64 bits. -/
theorem signed_product_bounds (a b : Word) : -2 ^ 63 ≤ a.toInt * b.toInt ∧ a.toInt * b.toInt < 2 ^ 63 := by
  have habs : |a.toInt * b.toInt| ≤ 2 ^ 31 * 2 ^ 31 := by
    rw [abs_mul]
    obtain ⟨ha, ha'⟩ := toInt_bounds a
    obtain ⟨hb, hb'⟩ := toInt_bounds b
    exact mul_le_mul (abs_le.2 ⟨by omega, by omega⟩) (abs_le.2 ⟨by omega, by omega⟩) (abs_nonneg _) (by positivity)
  obtain ⟨hlow, hhigh⟩ := abs_le.1 habs
  constructor <;> omega

/-- Settles O30: each result is the exact one, wrapped where it can be too large. -/
theorem longMultiplyResults : Obligations.LongMultiplyResults := by
  unfold Obligations.LongMultiplyResults
  rintro c sf hi lo rs rm s ⟨hcond, hpc⟩ hhi hlo hrs hrm hne a b acc done
  have hlong : ∀ o, longOp c hi lo rs rm s o = o := fun o => longOp_of o hcond (anyPc_four hhi hlo hrs hrm) hne
  have hwrite : ∀ p f, longOp c hi lo rs rm s (longWrite s f hi lo p) = done p f := fun p f =>
    (hlong _).trans (longWrite_after f p hpc hhi hlo)
  obtain ⟨hmin, hmax⟩ := signed_product_bounds a b
  refine ⟨⟨_, ?_, hwrite _ _⟩, ⟨_, ?_, hwrite _ _⟩, ⟨_, ?_, hwrite _ _⟩, ⟨_, ?_, hwrite _ _⟩, ⟨_, ?_, hwrite _ _⟩⟩
  · rw [BitVec.toNat_ofNat]
    exact Nat.mod_eq_of_lt (by simpa using product_lt a b 0 0)
  · exact BitVec.toNat_ofNat ..
  · exact BitVec.toInt_ofInt_eq_self (by decide) hmin hmax
  · exact BitVec.toInt_ofInt _
  · rw [BitVec.toNat_ofNat]
    exact Nat.mod_eq_of_lt (product_lt a b (s.reg lo) (s.reg hi))

/-! ### Halfword products -/

/-- A half-register, as the statements write it (43_multiply.md R261). -/
theorem half_eq (v : Word) (t : Bool) : half v t = (if t then v >>> 16 else v).setWidth 16 := by
  cases t <;> (apply BitVec.eq_of_getLsbD_eq; intro i hi; simp [half, hi])

/-- The bounds of a halfword as an integer. -/
theorem toInt_half_bounds (v : BitVec 16) : -2 ^ 15 ≤ v.toInt ∧ v.toInt < 2 ^ 15 :=
  ⟨BitVec.le_toInt (x := v), BitVec.toInt_lt (x := v)⟩

/-- The bounds of a product of two halfwords. -/
theorem half_product_bounds (a b : BitVec 16) : -2 ^ 30 < a.toInt * b.toInt ∧ a.toInt * b.toInt ≤ 2 ^ 30 := by
  obtain ⟨ha, ha'⟩ := toInt_half_bounds a
  obtain ⟨hb, hb'⟩ := toInt_half_bounds b
  constructor <;> rcases le_total 0 a.toInt with h | h <;> nlinarith

/-- A product of a word and a halfword fits 48 bits. -/
theorem wide_product_bounds (a : Word) (b : BitVec 16) : -2 ^ 46 ≤ a.toInt * b.toInt ∧ a.toInt * b.toInt ≤ 2 ^ 46 := by
  apply abs_le.1
  rw [abs_mul]
  obtain ⟨ha, ha'⟩ := toInt_bounds a
  obtain ⟨hb, hb'⟩ := toInt_half_bounds b
  calc |a.toInt| * |b.toInt| ≤ 2 ^ 31 * 2 ^ 15 :=
        mul_le_mul (abs_le.2 ⟨by omega, by omega⟩) (abs_le.2 ⟨by omega, by omega⟩) (abs_nonneg _) (by positivity)
    _ = 2 ^ 46 := by norm_num

/-- Dividing what is left modulo a product by the first factor. -/
theorem emod_mul_ediv (r : Int) {b : Int} (c : Int) (hb : 0 < b) : r % (b * c) / b = r / b % c := by
  rw [Int.emod_def, Int.emod_def, Int.mul_assoc, Int.sub_mul_ediv_left _ _ hb.ne', Int.ediv_ediv_of_nonneg hb.le]

/-- The top 32 bits of a wrapped integer are those of the integer: the floor of its quotient, wrapped. -/
theorem extract_ofInt (k : Nat) (r : Int) : (BitVec.ofInt (k + 32) r).extractLsb' k 32 = BitVec.ofInt 32 (r / 2 ^ k) := by
  apply BitVec.eq_of_toNat_eq
  rw [BitVec.extractLsb'_toNat, BitVec.toNat_ofInt, BitVec.toNat_ofInt, Nat.shiftRight_eq_div_pow]
  apply Int.ofNat.inj
  have hpos : (0 : Int) < 2 ^ k := by positivity
  change (((r % (2 ^ (k + 32) : Nat)).toNat / 2 ^ k % 2 ^ 32 : Nat) : Int) = ((r / 2 ^ k % (2 ^ 32 : Nat)).toNat : Int)
  push_cast
  rw [Int.toNat_of_nonneg (Int.emod_nonneg _ (by positivity)), Int.toNat_of_nonneg (Int.emod_nonneg _ (by positivity)),
    pow_add, emod_mul_ediv _ _ hpos]
  norm_num

/-- A word that holds an integer in its range holds that integer. -/
theorem toInt_ofInt_of_fits {r : Int} (hmin : -2 ^ 31 ≤ r) (hmax : r < 2 ^ 31) : (BitVec.ofInt 32 r).toInt = r :=
  BitVec.toInt_ofInt_eq_self (by decide) hmin hmax

/-- The top 32 bits of the 48-bit product of a word and a halfword (R272). -/
theorem wideProduct_toInt (s : State) (rm rs : Reg) (y : Bool) :
    (wideProduct s rm rs y).toInt = (s.reg rm).toInt * (half (s.reg rs) y).toInt / 2 ^ 16 := by
  obtain ⟨hmin, hmax⟩ := wide_product_bounds (s.reg rm) (half (s.reg rs) y)
  rw [wideProduct, extract_ofInt 16, toInt_ofInt_of_fits] <;> omega

/-- Settles O31. -/
theorem halfwordMultiplyResults : Obligations.HalfwordMultiplyResults := by
  unfold Obligations.HalfwordMultiplyResults
  rintro c rd rn rs rm x y s ⟨hcond, hpc⟩ hrd hrs hrm h xy wy acc fits
  have hxy : halfProduct s rm x rs y = xy := by rw [halfProduct, half_eq, half_eq]
  have hwy : (wideProduct s rm rs y).toInt = wy := by rw [wideProduct_toInt, half_eq]
  have hthree : ∀ o, mulOp c [rd, rs, rm] s o = o := fun o => mulOp_of o hcond (anyPc_three hrd hrs hrm)
  obtain ⟨hmin, hmax⟩ := half_product_bounds (half (s.reg rm) x) (half (s.reg rs) y)
  refine ⟨⟨BitVec.ofInt 32 (halfProduct s rm x rs y), ?_, (hthree _).trans (mulWrite_after false _ hpc hrd)⟩,
    ⟨_, hwy, (hthree _).trans (mulWrite_after false _ hpc hrd)⟩, fun hrn => ⟨?_, ?_, fun hne => ?_⟩⟩
  · rw [← hxy]
    exact toInt_ofInt_of_fits (by rw [halfProduct]; omega) (by rw [halfProduct]; omega)
  · rw [← hxy]
    exact (mulOp_of _ hcond (anyPc_four hrd hrn hrs hrm)).trans (sumWrite_after _ hpc hrd)
  · rw [← hwy]
    exact (mulOp_of _ hcond (anyPc_four hrd hrn hrs hrm)).trans (sumWrite_after _ hpc hrd)
  · rw [← hxy]
    exact (longOp_of _ hcond (anyPc_four hrd hrn hrs hrm) hne.symm).trans (longWrite_after false _ hpc hrd hrn)

/-! ### Dual products -/

/-- A half of a word with its halves exchanged. -/
theorem half_ror_16 (v : Word) (t : Bool) : half (ror v 16) t = half v (!t) := by
  cases t <;>
    (apply BitVec.eq_of_getLsbD_eq; intro i hi
     simp only [half, Bool.not_true, Bool.not_false, Bool.false_eq_true, if_true, if_false, BitVec.getLsbD_extractLsb', hi,
       decide_true, Bool.true_and]
     rw [getLsbD_ror v (by decide) (by omega)]
     congr 1
     omega)

/-- The halves of the second operand are exchanged where X (R287). -/
theorem half_dualOperand (s : State) (rs : Reg) (x t : Bool) : half (dualOperand s rs x) t = half (s.reg rs) (x != t) := by
  cases x with
  | false => rw [Bool.false_bne]; rfl
  | true => rw [Bool.true_bne]; exact half_ror_16 _ t

/-- Settles O32. -/
theorem dualMultiplyResults : Obligations.DualMultiplyResults := by
  unfold Obligations.DualMultiplyResults
  rintro c rd rn rs rm x s ⟨hcond, hpc⟩ hrd hrs hrm h bottom top acc fits sum long
  have hbottom : dualBottom s rm rs x = bottom := by
    rw [dualBottom, half_dualOperand, half_eq, half_eq, Bool.bne_false]
  have htop : dualTop s rm rs x = top := by
    rw [dualTop, half_dualOperand, half_eq, half_eq, Bool.bne_true]
  have hsum : ∀ (regs : List Reg) (r : Int), anyPc regs = false → mulOp c regs s (sumWrite s rd r) = sum r :=
    fun regs r hregs => (mulOp_of _ hcond hregs).trans (sumWrite_after r hpc hrd)
  have hthree := anyPc_three hrd hrs hrm
  obtain ⟨hmin, hmax⟩ := half_product_bounds (half (s.reg rm) false) (half (dualOperand s rs x) false)
  obtain ⟨hmin', hmax'⟩ := half_product_bounds (half (s.reg rm) true) (half (dualOperand s rs x) true)
  rw [show (half (s.reg rm) false).toInt * (half (dualOperand s rs x) false).toInt = bottom from hbottom] at hmin hmax
  rw [show (half (s.reg rm) true).toInt * (half (dualOperand s rs x) true).toInt = top from htop] at hmin' hmax'
  refine ⟨?_, ⟨BitVec.ofInt 32 (bottom - top), toInt_ofInt_of_fits (by omega) (by omega), ?_⟩, fun hrn => ⟨?_, ?_, fun hne => ?_⟩⟩
  · rw [← hbottom, ← htop]
    exact hsum _ _ hthree
  · rw [← hbottom, ← htop]
    exact (mulOp_of _ hcond hthree).trans (mulWrite_after false _ hpc hrd)
  · rw [← hbottom, ← htop]
    exact hsum _ _ (anyPc_four hrd hrn hrs hrm)
  · rw [← hbottom, ← htop]
    exact hsum _ _ (anyPc_four hrd hrn hrs hrm)
  · have hlong : ∀ p : BitVec 64, longOp c rd rn rs rm s (longWrite s false rd rn p) = .next (s.afterPair rd rn p s.cpsr) :=
      fun p => (longOp_of _ hcond (anyPc_four hrd hrn hrs hrm) hne.symm).trans (longWrite_after false p hpc hrd hrn)
    refine ⟨(hlong _).trans ?_, (hlong _).trans ?_⟩
    · rw [hbottom, htop, Int.add_assoc]; rfl
    · rw [hbottom, htop, Int.add_sub_assoc]; rfl

/-! ### Top words -/

/-- The top word of a 64-bit value, rounded where R (R286). -/
theorem topWord_eq (r : Bool) (v : Int) :
    topWord r v = BitVec.ofInt 32 ((v + (if r then 2 ^ 31 else 0)) / 2 ^ 32) := by
  rw [topWord, extract_ofInt 32]; rfl

/-- Settles O33. -/
theorem topWordMultiplyResults : Obligations.TopWordMultiplyResults := by
  unfold Obligations.TopWordMultiplyResults
  rintro c rd rn rs rm r s ⟨hcond, hpc⟩ hrd hrs hrm product acc done
  have hdone : ∀ (regs : List Reg) (p : Int), anyPc regs = false → mulOp c regs s (mulWrite s false rd (topWord r p)) = done p := by
    intro regs p hregs
    rw [mulOp_of _ hcond hregs, mulWrite_after false _ hpc hrd, topWord_eq]
    rfl
  exact ⟨hdone _ _ (anyPc_three hrd hrs hrm), fun hrn =>
    ⟨hdone _ _ (anyPc_four hrd hrn hrs hrm), hdone _ _ (anyPc_four hrd hrn hrs hrm)⟩⟩

end Sys2Proof.Proofs

/-! The parallel additions and subtractions (44_parallel_add_sub.md) and the extend, pack, reverse, select and saturate
instructions (45_extend_misc.md): each writes one register (`parallel_after`, `regOp_after`), so what is left is the value. -/
namespace Sys2Proof.Proofs
open Sys2Proof Sys2Proof.Machine Sys2Proof.Laws

/-! ### Saturation -/

/-- Saturation to a signed range is the nearest value of the range (00_scope.md R13). -/
theorem signedSat_eq (i : Int) (n : Nat) : signedSat i n = max (-2 ^ (n - 1)) (min i (2 ^ (n - 1) - 1)) := by
  have hpos : (0 : Int) < 2 ^ (n - 1) := by positivity
  unfold signedSat
  split_ifs <;> omega

/-- Saturation to an unsigned range is the nearest value of the range (R13). -/
theorem unsignedSat_eq (i : Int) (n : Nat) : unsignedSat i n = max 0 (min i (2 ^ n - 1)) := by
  have hpos : (0 : Int) < 2 ^ n := by positivity
  unfold unsignedSat
  split_ifs <;> omega

/-! ### The parallel instructions -/

/-- Every parallel instruction is one call of `parallel`. -/
theorem exec_parForm (p : ParPrefix) (op : ParOp) (c : Cond) (rn rd rm : Reg) (s : State) :
    exec (parForm p op c rn rd rm) s = parallel p op c rn rd rm s := by
  cases p <;> cases op <;> rfl

/-- GE written under its mask. -/
theorem withMask_ge (psr : Word) (g : BitVec 4) : withMask psr 0x000F0000 (g.setWidth 32 <<< 16) = withGe psr g := by
  have hge : (g.setWidth 32 <<< 16 : Word) &&& (0x000F0000 : Word) = g.setWidth 32 <<< 16 := by revert g; decide
  rw [withMask, withGe, hge]; rfl

/-- A parallel instruction writes its result and, in the S and U forms, GE (R303, R305). -/
theorem parallel_after {p : ParPrefix} {op : ParOp} {c : Cond} {rn rd rm : Reg} {s : State} (hruns : Runs c s) (hrn : rn ≠ 15)
    (hrd : rd ≠ 15) (hrm : rm ≠ 15) :
    let r := parCompute p op (s.reg rn) (s.reg rm)
    exec (parForm p op c rn rd rm) s =
      .next (s.after rd r.value (if p.setsGe then withGe s.cpsr r.ge else s.cpsr)) := by
  intro r
  obtain ⟨hcond, hpc⟩ := hruns
  rw [exec_parForm, parallel, whenCond_pass _ hcond, unlessPc_of _ (anyPc_three hrn hrd hrm), setReg_eq _ _ _ hrd]
  cases p.setsGe
  · exact advance_of_lt (s := { s with gpr := _ }) hpc
  · exact (advance_of_lt (s := State.setGe { s with gpr := _ } _) hpc).trans
      (congrArg (fun psr => Host.Outcome.next (s.after rd r.value psr)) (withMask_ge s.cpsr r.ge))

/-- The GE bit of a lane of a form that writes GE (R303). -/
theorem laneGe_eq {p : ParPrefix} (h : p.setsGe = true) (sub : Bool) (w : Nat) (r : Int) :
    laneGe p sub w r = decide (if p = .u ∧ (!sub) = true then 2 ^ w ≤ r else 0 ≤ r) := by
  cases p <;> cases h
  · rfl
  · cases sub <;> rfl

/-- The forms that write GE. -/
theorem setsGe_iff (p : ParPrefix) : p.setsGe = true ↔ p = .s ∨ p = .u := by
  cases p <;> decide

/-- The GE bits of two halfword lanes are two pairs. -/
theorem ofBool_pairs (t u : Bool) : BitVec.ofBool t ++ BitVec.ofBool t ++ BitVec.ofBool u ++ BitVec.ofBool u =
    (BitVec.ofBool t ++ BitVec.ofBool t) ++ (BitVec.ofBool u ++ BitVec.ofBool u) := by
  cases t <;> cases u <;> rfl

/-- Settles O34: a lane's value and GE bit are those of its exact result. -/
theorem parallelResults : Obligations.ParallelResults := by
  unfold Obligations.ParallelResults
  intro p c rn rd rm s hruns hrn hrd hrm part lane ge done a b pair halves sum dif bytes
  have hvalue : ∀ (w : Nat) (r : Int), laneValue p w r = lane w r := by
    intro w r
    cases p <;> simp only [laneValue, lane, signedSat_eq, unsignedSat_eq]
  have hge : p.setsGe = true → ∀ sub w r, laneGe p sub w r = ge (!sub) w r := laneGe_eq
  have hdone : ∀ (op : ParOp) (v : Word) (g : BitVec 4), (parCompute p op a b).value = v →
      (p.setsGe = true → (parCompute p op a b).ge = g) → exec (parForm p op c rn rd rm) s = done v g := by
    intro op v g hv hg
    rw [parallel_after hruns hrn hrd hrm, hv]
    by_cases h : p.setsGe = true
    · rw [if_pos h, hg h]
      exact congrArg (fun psr => Host.Outcome.next (s.after rd v psr)) (if_pos ((setsGe_iff p).1 h)).symm
    · rw [if_neg h]
      exact congrArg (fun psr => Host.Outcome.next (s.after rd v psr)) (if_neg (mt (setsGe_iff p).2 h)).symm
  have hhalves : ∀ (op : ParOp) (subT subU : Bool) (xT yT xU yU : BitVec 16),
      parCompute p op a b = ofHalves (Machine.lane p subT xT yT) (Machine.lane p subU xU yU) →
      exec (parForm p op c rn rd rm) s = halves (laneExact p subT xT yT) (laneExact p subU xU yU) (!subT) (!subU) := by
    intro op subT subU xT yT xU yU h
    apply hdone
    · rw [h, ofHalves, Machine.lane, Machine.lane, hvalue, hvalue]
    · intro hs
      rw [h, ofHalves, Machine.lane, Machine.lane, hge hs, hge hs]
      exact ofBool_pairs _ _
  have hbytes : ∀ (op : ParOp) (sub : Bool) (f : Nat → Int),
      parCompute p op a b = ofBytes ⟨laneValue p 8 (f 24), laneGe p sub 8 (f 24)⟩ ⟨laneValue p 8 (f 16), laneGe p sub 8 (f 16)⟩
        ⟨laneValue p 8 (f 8), laneGe p sub 8 (f 8)⟩ ⟨laneValue p 8 (f 0), laneGe p sub 8 (f 0)⟩ →
      exec (parForm p op c rn rd rm) s = bytes f (!sub) := by
    intro op sub f h
    apply hdone
    · rw [h, ofBytes, hvalue, hvalue, hvalue, hvalue]
    · intro hs
      rw [h, ofBytes, hge hs, hge hs, hge hs, hge hs]
  exact ⟨hhalves .add16 false false (half a true) (half b true) (half a false) (half b false) rfl,
    hhalves .addsubx false true (half a true) (half b false) (half a false) (half b true) rfl,
    hhalves .subaddx true false (half a true) (half b false) (half a false) (half b true) rfl,
    hhalves .sub16 true true (half a true) (half b true) (half a false) (half b false) rfl,
    hbytes .add8 false (fun i => sum i i 8) rfl, hbytes .sub8 true (fun i => dif i i 8) rfl⟩

/-! ### The instructions that write one register -/

/-- Two registers none of which is R15. -/
theorem anyPc_two {a b : Reg} (ha : a ≠ 15) (hb : b ≠ 15) : anyPc [a, b] = false :=
  anyPc_false_iff.2 (List.forall_mem_cons.2 ⟨ha, List.forall_mem_singleton.2 hb⟩)

/-- The result in the destination, Q set where it saturated. -/
theorem regOp_after {c : Cond} {regs : List Reg} {rd : Reg} {s : State} (v : Word) (q : Bool) (hruns : Runs c s)
    (hregs : anyPc regs = false) (hrd : rd ≠ 15) : regOp c regs rd v q s = .next (s.after rd v (stickyQ s.cpsr q)) := by
  obtain ⟨hcond, hpc⟩ := hruns
  rw [regOp, whenCond_pass _ hcond, unlessPc_of _ hregs, setReg_eq _ _ _ hrd, ← withBit_27]
  exact advance_of_lt hpc

/-- The result in the destination where nothing saturates. -/
theorem regOp_after_false {c : Cond} {regs : List Reg} {rd : Reg} {s : State} {v w : Word} (hruns : Runs c s)
    (hregs : anyPc regs = false) (hrd : rd ≠ 15) (hv : v = w) :
    regOp c regs rd v false s = .next (s.after rd w s.cpsr) := by
  rw [regOp_after v false hruns hregs hrd, hv]; rfl

/-- A byte of a word. -/
theorem byteOf_eq (v : Word) (i : Nat) : byteOf v i = (v >>> (8 * i)).setWidth 8 := by
  apply BitVec.eq_of_getLsbD_eq
  intro j hj
  simp [byteOf, hj]

/-- The halves of two joined halfwords. -/
theorem half_append (x y : BitVec 16) : half (x ++ y) true = x ∧ half (x ++ y) false = y :=
  ⟨extract_append_high x y, extract_append_low x y⟩

/-- Halfwords added lane by lane to two joined halfwords. -/
theorem addHalves_append (n : Word) (x y : BitVec 16) :
    addHalves n (x ++ y) = (half n true + x) ++ (half n false + y) := by
  obtain ⟨htop, hlow⟩ := half_append x y
  rw [addHalves, htop, hlow]

/-- Settles O35. -/
theorem extendResults : Obligations.ExtendResults := by
  unfold Obligations.ExtendResults
  intro c rn rd rm rot s hruns hrd hrm v b0 b2 h n top low done
  have h0 : byteOf (rotated (s.reg rm) rot) 0 = b0 := byteOf_eq _ _
  have h2 : byteOf (rotated (s.reg rm) rot) 2 = b2 := byteOf_eq _ _
  have hlow : half (rotated (s.reg rm) rot) false = h := half_eq _ _
  have hn1 : half n true = top := half_eq _ _
  have hn0 : half n false = low := half_eq _ _
  have htwo := anyPc_two hrd hrm
  refine ⟨regOp_after_false hruns htwo hrd ?_, regOp_after_false hruns htwo hrd ?_, regOp_after_false hruns htwo hrd ?_,
    regOp_after_false hruns htwo hrd ?_, regOp_after_false hruns htwo hrd ?_, regOp_after_false hruns htwo hrd ?_,
    fun hrn => ?_⟩
  · rw [extendPair, h0, h2]
  · rw [h0]
  · rw [hlow]
  · rw [extendPair, h0, h2]
  · rw [h0]
  · rw [hlow]
  · have hthree := anyPc_three hrn hrd hrm
    refine ⟨regOp_after_false hruns hthree hrd ?_, regOp_after_false hruns hthree hrd ?_,
      regOp_after_false hruns hthree hrd ?_, regOp_after_false hruns hthree hrd ?_, regOp_after_false hruns hthree hrd ?_,
      regOp_after_false hruns hthree hrd ?_⟩
    · rw [extendPair, h0, h2, addHalves_append, hn1, hn0]
    · rw [h0]
    · rw [hlow]
    · rw [extendPair, h0, h2, addHalves_append, hn1, hn0]
    · rw [h0]
    · rw [hlow]

/-- The number of zeros above the highest one of the low `k` bits (45_extend_misc.md R364). -/
theorem leadingZeros_spec (v : Word) (k : Nat) :
    leadingZeros v k ≤ k ∧ v.toNat % 2 ^ k < 2 ^ (k - leadingZeros v k) ∧
      (leadingZeros v k < k → 2 ^ (k - 1 - leadingZeros v k) ≤ v.toNat % 2 ^ k) := by
  induction k with
  | zero => exact ⟨Nat.zero_le _, by simp [Nat.mod_one], fun h => absurd h (Nat.not_lt_zero _)⟩
  | succ k ih =>
    obtain ⟨hle, hlt, hge⟩ := ih
    have hbit : v.getLsbD k = decide (v.toNat / 2 ^ k % 2 = 1) := by
      rw [BitVec.getLsbD, Nat.testBit_eq_decide_div_mod_eq]
    rw [leadingZeros, Nat.mod_pow_succ]
    by_cases h1 : v.toNat / 2 ^ k % 2 = 1
    · rw [hbit, decide_eq_true h1, if_pos rfl, h1]
      refine ⟨Nat.zero_le _, ?_, fun _ => Nat.le_trans (by simp) (Nat.le_add_left ..)⟩
      have hlow := Nat.mod_lt v.toNat (y := 2 ^ k) (by positivity)
      rw [Nat.sub_zero, pow_succ]
      omega
    · rw [hbit, decide_eq_false h1, if_neg Bool.false_ne_true, show v.toNat / 2 ^ k % 2 = 0 by omega, Nat.mul_zero,
        Nat.add_zero]
      refine ⟨Nat.succ_le_succ hle, by rwa [Nat.add_sub_add_right], fun h => ?_⟩
      rw [show k + 1 - 1 - (leadingZeros v k + 1) = k - 1 - leadingZeros v k by omega]
      exact hge (by omega)

/-- The absolute difference of two bytes (R365). -/
theorem absDiff_eq (a b : Byte) : absDiff a b = ((a.toNat : Int) - b.toNat).natAbs := by
  unfold absDiff
  split_ifs <;> omega

/-- The top half of one word above the bottom half of another. -/
theorem pack_halves (x y : Word) : half x true ++ half y false = (x &&& 0xFFFF0000) ||| (y &&& 0x0000FFFF) := by
  have htop : ∀ i < 32, (0xFFFF0000 : Word).getLsbD i = decide (16 ≤ i) := by decide
  have hlow : ∀ i < 32, (0x0000FFFF : Word).getLsbD i = decide (i < 16) := by decide
  apply BitVec.eq_of_getLsbD_eq
  intro i hi
  rw [BitVec.getLsbD_append, BitVec.getLsbD_or, BitVec.getLsbD_and, BitVec.getLsbD_and, htop i hi, hlow i hi]
  by_cases h : i < 16
  · simp [half, h, Nat.not_le.2 h]
  · simp [half, h, Nat.not_lt.1 h, show i - 16 < 16 by omega]

/-- 32 copies of the sign are an arithmetic shift right by 32. -/
theorem signWord_eq (v : Word) : signWord v = v.sshiftRight 32 := by
  apply BitVec.eq_of_toInt_eq
  rw [signWord_toInt, sshiftRight_toInt, toInt_div_pow v le_rfl]

/-- An arithmetic shift right where 0 stands for 32 (R372). -/
theorem asr32_eq (v : Word) (imm5 : BitVec 5) : asr32 v imm5 = v.sshiftRight (if imm5 = 0 then 32 else imm5.toNat) := by
  unfold asr32
  split_ifs
  · exact signWord_eq v
  · rfl

/-- A byte of SEL (R377). -/
theorem selByte_eq (s : State) (a b : Word) {i : Nat} (hi : i < 4) :
    selByte s.ge a b i = if s.cpsr.getLsbD (16 + i) then byteOf a i else byteOf b i := by
  rw [selByte, State.ge, BitVec.getLsbD_extractLsb', decide_eq_true hi, Bool.true_and]

/-- Settles O36. -/
theorem miscellaneousResults : Obligations.MiscellaneousResults := by
  unfold Obligations.MiscellaneousResults
  intro c rn rd rs rm imm5 s hruns hrd hrm a m byte diff sad sh pick done
  have htwo := anyPc_two hrd hrm
  have hsad : sumAbsDiff m (s.reg rs) = sad := by
    rw [sumAbsDiff, absDiff_eq, absDiff_eq, absDiff_eq, absDiff_eq]; rfl
  obtain ⟨hle, hlt, hge⟩ := leadingZeros_spec m 32
  rw [Nat.mod_eq_of_lt m.isLt] at hlt hge
  refine ⟨⟨leadingZeros m 32, hle, hlt, hge, regOp_after_false hruns htwo hrd rfl⟩, regOp_after_false hruns htwo hrd rfl,
    regOp_after_false hruns htwo hrd rfl, regOp_after_false hruns htwo hrd rfl, fun hrs => ⟨?_, fun hrn => ?_⟩,
    fun hrn => ⟨?_, ?_, ?_⟩⟩
  · exact regOp_after_false hruns (anyPc_three hrd hrs hrm) hrd (by rw [hsad])
  · exact regOp_after_false hruns (anyPc_four hrd hrn hrs hrm) hrd (by rw [hsad])
  · exact regOp_after_false hruns (anyPc_three hrn hrd hrm) hrd (pack_halves _ _)
  · exact regOp_after_false hruns (anyPc_three hrn hrd hrm) hrd (by rw [pack_halves, asr32_eq])
  · refine regOp_after_false hruns (anyPc_three hrn hrd hrm) hrd ?_
    rw [selBytes, selByte_eq s _ _ (by decide), selByte_eq s _ _ (by decide), selByte_eq s _ _ (by decide),
      selByte_eq s _ _ (by decide)]
    rfl

/-! ### Saturating instructions -/

/-- The shifted operand of SSAT and USAT (R378). -/
theorem satOperand_eq (v : Word) (sh : Bool) (imm5 : BitVec 5) : satOperand v sh imm5 =
    if sh then v.sshiftRight (if imm5 = 0 then 32 else imm5.toNat) else v <<< imm5.toNat := by
  cases sh
  · rfl
  · exact asr32_eq v imm5

/-- Settles O37. -/
theorem saturateResults : Obligations.SaturateResults := by
  unfold Obligations.SaturateResults
  intro c rd rm sat imm5 sat4 sh s hruns hrd hrm m v top low clamp one two
  have htwo := anyPc_two hrd hrm
  have hv : (satOperand m sh imm5).toInt = v := by rw [satOperand_eq]
  have hsigned : ∀ (n : Nat) (i : Int), signedSat i (n + 1) = clamp (-2 ^ n) (2 ^ n - 1) i := fun n i => signedSat_eq i (n + 1)
  have hunsigned : ∀ (n : Nat) (i : Int), unsignedSat i n = clamp 0 (2 ^ n - 1) i := fun n i => unsignedSat_eq i n
  refine ⟨?_, ?_, ?_, ?_⟩ <;> refine (regOp_after _ _ hruns htwo hrd).trans ?_
  · rw [signedDoesSat, hsigned, hv]
  · rw [unsignedDoesSat, hunsigned, hv]
  · simp only [satHalves, satEither, signedDoesSat, hsigned]; rfl
  · simp only [satHalves, satEither, unsignedDoesSat, hunsigned]; rfl

/-- Settles O38. -/
theorem saturatingAddResults : Obligations.SaturatingAddResults := by
  unfold Obligations.SaturatingAddResults
  intro c rn rd rm s hruns hrn hrd hrm clamp m n d done
  have hthree := anyPc_three hrn hrd hrm
  have hsat : ∀ i, signedSat i 32 = clamp i := fun i => signedSat_eq i 32
  refine ⟨?_, ?_, ?_, ?_⟩ <;> refine (regOp_after _ _ hruns hthree hrd).trans ?_ <;>
    simp only [signedDoesSat, doubled, hsat] <;> rfl

end Sys2Proof.Proofs

/-! The single loads and stores (47_load_store.md sections 2 and 3): each form is the checks of its registers and one `loadReg` or
`storeReg` (`exec_load`, `exec_store`), which is done, aborts or crosses the top of the address space as its one access does. -/
namespace Sys2Proof.Proofs
open Sys2Proof Sys2Proof.Machine Sys2Proof.Laws

/-! ### The forms -/

/-- The offset register of a transfer, where it has one. -/
def offsetReg : Offset → Option Reg
  | .imm _ => none
  | .reg _ _ rm => some rm

/-- The transfers whose register may not be R15: all but LDR and STR (47_load_store.md R425). -/
def noPcRegister (k : Transfer) : Bool := !(k == .ldr || k == .str)

/-- Every single load is the checks of its form and one `loadReg`. -/
theorem exec_load {k : Transfer} (h : k.stores = false) (o : Offset) (c : Cond) (im : IndexMode) (u : Bool) (rn rd : Reg)
    (s : State) : exec (k.form o c im u rn rd) s = lsOp c (noPcRegister k) (k.index im) rn rd (offsetReg o) s
      (loadReg (k.priv s) k.bytes k.extend (k.index im) u rn rd (k.offset o s) s) := by
  cases k <;> cases h <;> cases o <;> rfl

/-- Every single store is the checks of its form and one `storeReg`. -/
theorem exec_store {k : Transfer} (h : k.stores = true) (o : Offset) (c : Cond) (im : IndexMode) (u : Bool) (rn rd : Reg)
    (s : State) : exec (k.form o c im u rn rd) s = lsOp c (noPcRegister k) (k.index im) rn rd (offsetReg o) s
      (storeReg (k.priv s) k.bytes (k.index im) u rn rd (k.offset o s) s) := by
  cases k <;> cases h <;> cases o <;> rfl

/-- What a form allows of its registers, one by one (R425, R426). -/
theorem allows_iff {k : Transfer} {o : Offset} {im : IndexMode} {rn rd : Reg} : k.allows o im rn rd = true ↔
    (∀ rm, offsetReg o = some rm → rm ≠ 15) ∧ (writesBack (k.index im) = true → rn ≠ 15 ∧ rn ≠ rd) ∧
      (noPcRegister k = true → rd ≠ 15) := by
  cases o <;> simp only [Transfer.allows, noPcRegister, offsetReg] <;>
    generalize writesBack (k.index im) = wb <;> generalize (k == .ldr || k == .str) = anyRd <;>
    cases wb <;> cases anyRd <;> simp [and_assoc]

/-- Allowed registers pass the checks. -/
theorem lsOp_of_allows {k : Transfer} {o : Offset} {c : Cond} {im : IndexMode} {rn rd : Reg} {s : State} (out : Out)
    (hcond : conditionPassed c s = true) (h : k.allows o im rn rd = true) :
    lsOp c (noPcRegister k) (k.index im) rn rd (offsetReg o) s out = out := by
  obtain ⟨hrm, hwb, hrd⟩ := allows_iff.1 h
  have hpc : anyPc ((offsetReg o).toList ++ (if writesBack (k.index im) then [rn] else []) ++
      (if noPcRegister k then [rd] else [])) = false := by
    rw [anyPc_false_iff]
    intro r hr
    simp only [List.mem_append, Option.mem_toList] at hr
    rcases hr with (hr | hr) | hr
    · exact hrm r hr
    · split_ifs at hr with hw
      · exact (List.mem_singleton.1 hr) ▸ (hwb hw).1
      · cases hr
    · split_ifs at hr with hn
      · exact (List.mem_singleton.1 hr) ▸ hrd hn
      · cases hr
  have hbase : (writesBack (k.index im) && rd == rn) = false := by
    cases hw : writesBack (k.index im)
    · rfl
    · simpa using (hwb hw).2.symm
  rw [lsOp, whenCond_pass _ hcond, lsChecks, unlessPc_of _ hpc, hbase]
  rfl

/-! ### The base register and an interworking branch -/

/-- Base writeback, where the base register is not R15. -/
theorem writeBack_eq {s : State} {wb : Bool} {rn : Reg} (v : Word) (h : wb = true → rn ≠ 15) :
    s.writeBack wb rn v = { s with gpr := s.based wb rn v } := by
  cases wb
  · rfl
  · exact setReg_eq s rn v (h rfl)

/-- The low two bits of a word, as a mask. -/
theorem low_bits_iff (v : Word) : v.extractLsb' 0 2 = 0b10 ↔ v &&& 3 = 2 := by
  have hand : (v &&& 3).toNat = v.toNat % 4 := by
    rw [BitVec.toNat_and]; exact Nat.and_two_pow_sub_one_eq_mod _ 2
  rw [← BitVec.toNat_inj, ← BitVec.toNat_inj, hand, BitVec.extractLsb'_toNat]
  rfl

/-- T written in a status register. -/
theorem withBit_5 (p : Word) (b : Bool) : withBit p 5 b = if b then p ||| 0x20 else p &&& ~~~0x20 := by
  cases b <;> rfl

/-- An interworking branch (10_state.md R40). -/
theorem interwork_branch {s : State} {v : Word} (h : v &&& 3 ≠ 2) : interwork s v =
    .next { s with cpsr := if v.getLsbD 0 then s.cpsr ||| 0x20 else s.cpsr &&& ~~~0x20, pc := v &&& 0xFFFFFFFE } := by
  rw [interwork, if_neg (mt (low_bits_iff v).1 h), withBit_5]

/-- An interworking branch to a target that is aligned for neither state (R40). -/
theorem interwork_fault {s : State} {v : Word} (h : v &&& 3 = 2) : interwork s v = .fault .interworkAlign := by
  rw [interwork, if_pos ((low_bits_iff v).2 h)]

/-! ### A load and a store, as their access goes -/

/-- A load that is done. -/
theorem loadReg_done {v : Privilege} {n : Nat} {ext : Word → Word} {im : IndexMode} {u : Bool} {rn rd : Reg} {off w : Word}
    {s : State} (h : s.readable v n (accessAddress im (s.reg rn) off u) w) (hwb : writesBack im = true → rn ≠ 15) :
    loadReg v n ext im u rn rd off s =
      (let t := { s with gpr := s.based (writesBack im) rn (indexed (s.reg rn) off u) }
       if rd = 15 then interwork t w else advance (t.setReg rd (ext w))) := by
  simp only [loadReg, load_ok.2 h, afterLoad, writeBack_eq _ hwb]

/-- An access that crosses the top of the address space is not loaded (20_memory.md R83). -/
theorem load_wraps {s : State} {v : Privilege} {n : Nat} {a : Word} (h : 2 ^ 32 < a.toNat + n) :
    s.load v n a = .fault .addressWrap := by
  rw [State.load, crossesTop_true.2 h]; rfl

/-- An access that crosses the top of the address space is not stored (R83). -/
theorem store_wraps {s : State} {v : Privilege} {n : Nat} {a w : Word} (h : 2 ^ 32 < a.toNat + n) :
    s.store v n a w = .fault .addressWrap :=
  store_fault.2 ⟨h, rfl⟩

/-- A store that is done. -/
theorem storeReg_done {v : Privilege} {n : Nat} {im : IndexMode} {u : Bool} {rn rd : Reg} {off : Word} {s : State}
    (h : s.writable v n (accessAddress im (s.reg rn) off u)) (hwb : writesBack im = true → rn ≠ 15)
    (hpc : s.pc.toNat + 4 < 2 ^ 32) :
    storeReg v n im u rn rd off s =
      .next { s.withStored n (accessAddress im (s.reg rn) off u) (s.storedReg s.mode rd) with
        gpr := s.based (writesBack im) rn (indexed (s.reg rn) off u)
        pc := s.pc + 4 } := by
  simp only [storeReg, store_ok.2 ⟨h, rfl⟩, afterStore, writeBack_eq _ hwb]
  exact advance_of_lt hpc

/-- Settles O45: the one access is done and its value extended. -/
theorem loadResults : Obligations.LoadResults := by
  unfold Obligations.LoadResults
  rintro k o c im u rn rd w s hk ⟨hcond, hpc⟩ hallow hrd hread
  obtain ⟨-, hwb, -⟩ := allows_iff.1 hallow
  rw [exec_load hk, lsOp_of_allows _ hcond hallow, loadReg_done hread fun h => (hwb h).1]
  simp only [if_neg hrd, setReg_eq _ _ _ hrd]
  exact advance_of_lt hpc

/-- Settles O46. -/
theorem loadToPcBranches : Obligations.LoadToPcBranches := by
  unfold Obligations.LoadToPcBranches
  intro o c im u rn w s hcond hallow hread
  obtain ⟨-, hwb, -⟩ := allows_iff.1 hallow
  have hexec : exec (Transfer.ldr.form o c im u rn 15) s =
      interwork { s with gpr := s.based (writesBack im) rn (Transfer.ldr.base o u rn s) } w := by
    rw [exec_load rfl, lsOp_of_allows _ hcond hallow]
    exact (loadReg_done hread fun h => (hwb h).1).trans (if_pos rfl)
  rw [hexec]
  exact ⟨interwork_branch, interwork_fault⟩

/-- Settles O47. -/
theorem storeResults : Obligations.StoreResults := by
  unfold Obligations.StoreResults
  rintro k o c im u rn rd s hk ⟨hcond, hpc⟩ hallow hwrite
  obtain ⟨-, hwb, -⟩ := allows_iff.1 hallow
  rw [exec_store hk, lsOp_of_allows _ hcond hallow, storeReg_done hwrite (fun h => (hwb h).1) hpc]
  rfl

end Sys2Proof.Proofs

/-! Doublewords, exclusive accesses, PLD and the swaps (47_load_store.md sections 4 to 6; 48_load_store_multiple_semaphore.md
section 4): what their checks let through, and the access that is then done. -/
namespace Sys2Proof.Proofs
open Sys2Proof Sys2Proof.Machine Sys2Proof.Laws

/-! ### Doublewords -/

/-- The base register of a doubleword transfer is none of the pair and not R15, where it is written back. -/
def PairBase (im : IndexMode) (rn rd : Reg) : Prop := writesBack im = true → rn ≠ 15 ∧ rn ≠ rd ∧ rn ≠ rd + 1

/-- An odd destination is UNDEFINED before the other checks (47_load_store.md R435). -/
theorem pairChecks_odd {load : Bool} {im : IndexMode} {rn rd : Reg} {rm : Option Reg} {s : State} (out : Out)
    (h : rd.getLsbD 0 = true) : pairChecks load im rn rd rm s out = .next (takeException .undefinedInstruction s) := by
  rw [pairChecks, if_pos h]; rfl

/-- R14 as the destination faults. -/
theorem pairChecks_r14 {load : Bool} {im : IndexMode} {rn rd : Reg} {rm : Option Reg} {s : State} (out : Out) (h : rd = 14) :
    pairChecks load im rn rd rm s out = .fault .doublewordR14 := by
  subst h; rfl

/-- Past an even destination other than R14 come R15 and the equal registers. -/
theorem pairChecks_even {load : Bool} {im : IndexMode} {rn rd : Reg} {rm : Option Reg} {s : State} (out : Out)
    (heven : rd.getLsbD 0 = false) (h14 : rd ≠ 14) : pairChecks load im rn rd rm s out =
      unlessPc (rm.toList ++ (if writesBack im then [rn] else []))
        (if writesBack im && (rn == rd || rn == rd + 1) then .fault .writebackBase
         else if load && (rm == some rd || rm == some (rd + 1)) then .fault .sameRegister else out) := by
  rw [pairChecks, if_neg (by rw [heven]; exact Bool.false_ne_true), if_neg h14]; rfl

/-- The fields R15 is checked for in a doubleword transfer. -/
theorem pairFields_allowed {im : IndexMode} {rn rd : Reg} {rm : Option Reg} (hrm : ∀ r, rm = some r → r ≠ 15)
    (hbase : PairBase im rn rd) : anyPc (rm.toList ++ (if writesBack im then [rn] else [])) = false := by
  rw [anyPc_false_iff]
  intro r hr
  rw [List.mem_append, Option.mem_toList] at hr
  rcases hr with hr | hr
  · exact hrm r hr
  · split_ifs at hr with hw
    · exact (List.mem_singleton.1 hr) ▸ (hbase hw).1
    · cases hr

/-- What the checks let through. -/
theorem pairChecks_of {load : Bool} {im : IndexMode} {rn rd : Reg} {rm : Option Reg} {s : State} (out : Out)
    (heven : rd.getLsbD 0 = false) (h14 : rd ≠ 14) (hbase : PairBase im rn rd) (hrm : ∀ r, rm = some r → r ≠ 15)
    (hload : load = true → ∀ r, rm = some r → r ≠ rd ∧ r ≠ rd + 1) : pairChecks load im rn rd rm s out = out := by
  rw [pairChecks_even out heven h14, unlessPc_of _ (pairFields_allowed hrm hbase), if_neg, if_neg]
  · rw [Bool.and_eq_true, Bool.or_eq_true, beq_iff_eq, beq_iff_eq]
    rintro ⟨hl, hr | hr⟩
    · exact (hload hl rd hr).1 rfl
    · exact (hload hl (rd + 1) hr).2 rfl
  · rw [Bool.and_eq_true, Bool.or_eq_true, beq_iff_eq, beq_iff_eq]
    rintro ⟨hw, hr | hr⟩
    · exact (hbase hw).2.1 hr
    · exact (hbase hw).2.2 hr

/-- An aligned access that does not cross the top of the address space is made. -/
theorem whenAligned_of {n : Nat} {a : Word} {s : State} (out : Out) (htop : a.toNat + n ≤ 2 ^ 32) (h : a.toNat % n = 0) :
    whenAligned n a s out = out := by
  rw [whenAligned, crossesTop_false.2 htop, if_neg Bool.false_ne_true, if_neg (not_not.2 h)]

/-- A misaligned access takes the Data Abort (20_memory.md R77). -/
theorem whenAligned_abort {n : Nat} {a : Word} {s : State} (out : Out) (htop : a.toNat + n ≤ 2 ^ 32) (h : a.toNat % n ≠ 0) :
    whenAligned n a s out = .next (takeException .dataAbort s) := by
  rw [whenAligned, crossesTop_false.2 htop, if_neg Bool.false_ne_true, if_pos h]; rfl

/-- An access that crosses the top of the address space faults (R83). -/
theorem whenAligned_wraps {n : Nat} {a : Word} {s : State} (out : Out) (htop : 2 ^ 32 < a.toNat + n) :
    whenAligned n a s out = .fault .addressWrap := by
  rw [whenAligned, crossesTop_true.2 htop]; rfl

/-- The registers of a pair are not R15. -/
theorem pair_ne_pc {rd : Reg} (heven : rd.getLsbD 0 = false) (h14 : rd ≠ 14) : rd ≠ 15 ∧ rd + 1 ≠ 15 := by
  revert rd; decide

/-- A load of two words that is done. -/
theorem loadPair_done {im : IndexMode} {u : Bool} {rn rd : Reg} {off w0 w1 : Word} {s : State} (heven : rd.getLsbD 0 = false)
    (h14 : rd ≠ 14) (hbase : PairBase im rn rd) (halign : (accessAddress im (s.reg rn) off u).toNat % 8 = 0)
    (hread : s.readableBlock (accessAddress im (s.reg rn) off u) [w0, w1]) (hpc : s.pc.toNat + 4 < 2 ^ 32) :
    loadPair im u rn rd off s = .next { s with
      gpr := ((s.based (writesBack im) rn (indexed (s.reg rn) off u)).set (cell s.mode rd) w0).set (cell s.mode (rd + 1)) w1
      pc := s.pc + 4 } := by
  obtain ⟨hrd, hrd1⟩ := pair_ne_pc heven h14
  have htop : (accessAddress im (s.reg rn) off u).toNat + 8 ≤ 2 ^ 32 := hread.1
  rw [loadPair, whenAligned_of _ htop halign, show (2 : Nat) = [w0, w1].length from rfl, loadBlock_ok hread,
    writeBack_eq _ fun h => (hbase h).1]
  simp only [State.setRegsOf, State.setRegOf, pairReg, if_neg hrd, if_neg hrd1]
  exact advance_of_lt hpc

/-- A store of two words that is done. -/
theorem storePair_done {im : IndexMode} {u : Bool} {rn rd : Reg} {off : Word} {s : State} (hbase : PairBase im rn rd)
    (halign : (accessAddress im (s.reg rn) off u).toNat % 8 = 0)
    (hwrite : s.writableBlock (accessAddress im (s.reg rn) off u) 2) (hpc : s.pc.toNat + 4 < 2 ^ 32) :
    storePair im u rn rd off s = .next
      { s.withStoredWords (accessAddress im (s.reg rn) off u) [s.reg rd, s.reg (rd + 1)] with
        gpr := s.based (writesBack im) rn (indexed (s.reg rn) off u)
        pc := s.pc + 4 } := by
  have htop : (accessAddress im (s.reg rn) off u).toNat + 8 ≤ 2 ^ 32 := hwrite.1
  rw [storePair, whenAligned_of _ htop halign, storeBlock_ok (ws := [_, _]) hwrite, afterStore, writeBack_eq _ fun h => (hbase h).1]
  exact advance_of_lt hpc

/-- A doubleword transfer with an offset in the instruction or in a register. -/
theorem exec_doubleword (c : Cond) (im : IndexMode) (u : Bool) (rn rd rm : Reg) (imm8 : BitVec 8) (s : State) :
    exec (.ldrdImm c im u rn rd imm8) s = whenCond c s (pairChecks true im rn rd none s (loadPair im u rn rd (imm8.setWidth 32) s)) ∧
    exec (.ldrdReg c im u rn rd rm) s = whenCond c s (pairChecks true im rn rd (some rm) s (loadPair im u rn rd (s.reg rm) s)) ∧
    exec (.strdImm c im u rn rd imm8) s = whenCond c s (pairChecks false im rn rd none s (storePair im u rn rd (imm8.setWidth 32) s)) ∧
    exec (.strdReg c im u rn rd rm) s = whenCond c s (pairChecks false im rn rd (some rm) s (storePair im u rn rd (s.reg rm) s)) :=
  ⟨rfl, rfl, rfl, rfl⟩

/-- What holds of two things. -/
theorem forall_mem_pair {α : Type} {P : α → Prop} {a b : α} : (∀ x ∈ [a, b], P x) ↔ P a ∧ P b := by
  rw [List.forall_mem_cons, List.forall_mem_singleton]

/-- What holds of four things. -/
theorem forall_mem_four {α : Type} {P : α → Prop} {a b c d : α} : (∀ x ∈ [a, b, c, d], P x) ↔ P a ∧ P b ∧ P c ∧ P d := by
  rw [List.forall_mem_cons, List.forall_mem_cons, forall_mem_pair]

/-- Settles O49: past the checks the pair is transferred as a whole, or its misaligned address aborts. -/
theorem doublewordResults : Obligations.DoublewordResults := by
  unfold Obligations.DoublewordResults
  rintro c im u rn rd rm imm8 w0 w1 s ⟨hcond, hpc⟩ wb free address base
  obtain ⟨hli, hlr, hsi, hsr⟩ := exec_doubleword c im u rn rd rm imm8 s
  rw [whenCond_pass _ hcond] at hli hlr hsi hsr
  refine ⟨fun hodd => ?_, fun h14 => ?_, fun heven h14 hfree => ?_⟩
  · rw [forall_mem_four, hli, hlr, hsi, hsr]
    exact ⟨pairChecks_odd _ hodd, pairChecks_odd _ hodd, pairChecks_odd _ hodd, pairChecks_odd _ hodd⟩
  · rw [forall_mem_four, hli, hlr, hsi, hsr]
    exact ⟨pairChecks_r14 _ h14, pairChecks_r14 _ h14, pairChecks_r14 _ h14, pairChecks_r14 _ h14⟩
  · have hbase : PairBase im rn rd := fun hw => hfree.resolve_left (by rw [show wb = true from hw]; decide)
    have hnone : ∀ r, (none : Option Reg) = some r → r ≠ 15 := fun r hr => nomatch hr
    rw [forall_mem_pair, forall_mem_pair, hli, hlr, hsi, hsr]
    refine ⟨⟨fun _ => ?_, fun hrm => ?_⟩, ⟨fun _ => ?_, fun hrm => ?_⟩⟩
    · rw [pairChecks_of _ heven h14 hbase hnone fun _ r hr => nomatch hr]
      exact ⟨fun halign hread => loadPair_done heven h14 hbase halign hread hpc, whenAligned_abort _⟩
    · simp only [Bool.and_eq_true, bne_iff_ne] at hrm
      obtain ⟨⟨hrm15, hrmd⟩, hrmd1⟩ := hrm
      rw [pairChecks_of _ heven h14 hbase (fun r hr => Option.some.inj hr ▸ hrm15)
        fun _ r hr => Option.some.inj hr ▸ ⟨hrmd, hrmd1⟩]
      exact ⟨fun halign hread => loadPair_done heven h14 hbase halign hread hpc, whenAligned_abort _⟩
    · rw [pairChecks_of (load := false) _ heven h14 hbase hnone fun h => absurd h Bool.false_ne_true]
      exact ⟨fun halign hwrite => storePair_done hbase halign hwrite hpc, whenAligned_abort _⟩
    · rw [pairChecks_of (load := false) _ heven h14 hbase (fun r hr => Option.some.inj hr ▸ bne_iff_ne.1 hrm)
        fun h => absurd h Bool.false_ne_true]
      exact ⟨fun halign hwrite => storePair_done hbase halign hwrite hpc, whenAligned_abort _⟩

/-! ### Exclusive accesses -/

/-- The tag of an address is the address with its low bits cleared (10_state.md R54). -/
theorem monitorTag_eq (p : Platform) (a : Word) :
    let erg := p.ergMinus3.val + 3
    monitorTag p a = BitVec.ofNat 32 (a.toNat / 2 ^ erg * 2 ^ erg) := by
  intro erg
  apply BitVec.eq_of_toNat_eq
  rw [monitorTag, shiftLeft_toNat, ushiftRight_toNat, BitVec.toNat_ofNat]

/-- LDREX and STREX, their condition passing and their registers allowed (47_load_store.md R446, R447). -/
theorem exec_ldrex {c : Cond} {rn rd : Reg} {s : State} (hcond : conditionPassed c s = true) (hrn : rn ≠ 15) (hrd : rd ≠ 15) :
    exec (.ldrex c rn rd) s = afterLoad s (s.load s.privilege 4 (s.reg rn)) fun data =>
      advance ({ s with monitor := some (monitorTag s.platform (s.reg rn)) }.setReg rd data) :=
  (whenCond_pass _ hcond).trans (unlessPc_of _ (anyPc_two hrn hrd))

theorem exec_strex {c : Cond} {rn rd rm : Reg} {s : State} (hcond : conditionPassed c s = true) (hrn : rn ≠ 15) (hrd : rd ≠ 15)
    (hrm : rm ≠ 15) (hdn : rd ≠ rn) (hdm : rd ≠ rm) :
    exec (.strex c rn rd rm) s = whenAligned 4 (s.reg rn) s
      (if s.monitor = some (monitorTag s.platform (s.reg rn)) then
        afterLoad s (s.store s.privilege 4 (s.reg rn) (s.reg rm)) fun t => advance ({ t with monitor := none }.setReg rd 0)
      else advance ({ s with monitor := none }.setReg rd 1)) :=
  (whenCond_pass _ hcond).trans ((unlessPc_of _ (anyPc_three hrn hrd hrm)).trans
    ((unlessSame_of _ hdn).trans (unlessSame_of _ hdm)))

/-- A word-aligned access does not cross the top of the address space. -/
theorem top_of_aligned {a : Word} (h : a.toNat % 4 = 0) : a.toNat + 4 ≤ 2 ^ 32 := by
  have := a.isLt
  omega

/-- Settles O50. -/
theorem exclusiveResults : Obligations.ExclusiveResults := by
  unfold Obligations.ExclusiveResults
  rintro c rn rd rm w s ⟨hcond, hpc⟩ hrn hrd a erg tag
  have htag : monitorTag s.platform a = tag := monitorTag_eq s.platform a
  refine ⟨fun hread => ?_, fun hrm hdn hdm halign => ⟨fun hmon hwrite => ?_, fun hmon => ?_⟩⟩
  · rw [exec_ldrex hcond hrn hrd, load_ok.2 hread, afterLoad, htag, setReg_eq _ _ _ hrd]
    exact advance_of_lt hpc
  · rw [exec_strex hcond hrn hrd hrm hdn hdm, whenAligned_of _ (top_of_aligned halign) halign, htag, if_pos hmon,
      store_ok.2 ⟨hwrite, rfl⟩, afterLoad, setReg_eq _ _ _ hrd]
    exact advance_of_lt hpc
  · rw [exec_strex hcond hrn hrd hrm hdn hdm, whenAligned_of _ (top_of_aligned halign) halign, htag, if_neg hmon,
      setReg_eq _ _ _ hrd]
    exact advance_of_lt hpc

/-! ### PLD and the swaps -/

/-- A swap, its condition passing and its registers allowed (48_load_store_multiple_semaphore.md R490). -/
theorem swap_of {c : Cond} {n : Nat} {rn rd rm : Reg} {s : State} (hcond : conditionPassed c s = true) (hrn : rn ≠ 15)
    (hrd : rd ≠ 15) (hrm : rm ≠ 15) (hnm : rn ≠ rm) (hnd : rn ≠ rd) :
    swap c n rn rd rm s = afterLoad s (s.load s.privilege n (s.reg rn)) fun temp =>
      afterLoad s (s.store s.privilege n (s.reg rn) (s.reg rm)) fun t => advance (t.setReg rd temp) := by
  rw [swap, whenCond_pass _ hcond, unlessPc_of _ (anyPc_three hrn hrd hrm), unlessSame_of _ hnm, unlessSame_of _ hnd]

/-- A swap that is done. -/
theorem swap_done {c : Cond} {n : Nat} {rn rd rm : Reg} {w : Word} {s : State} (hcond : conditionPassed c s = true)
    (hrn : rn ≠ 15) (hrd : rd ≠ 15) (hrm : rm ≠ 15) (hnm : rn ≠ rm) (hnd : rn ≠ rd)
    (hread : s.readable s.privilege n (s.reg rn) w) (hwrite : s.writable s.privilege n (s.reg rn))
    (hpc : s.pc.toNat + 4 < 2 ^ 32) : swap c n rn rd rm s = .next { s.withStored n (s.reg rn) (s.reg rm) with
      gpr := s.gpr.set (cell s.mode rd) w
      pc := s.pc + 4 } := by
  rw [swap_of hcond hrn hrd hrm hnm hnd, load_ok.2 hread, afterLoad, store_ok.2 ⟨hwrite, rfl⟩, afterLoad, setReg_eq _ _ _ hrd]
  exact advance_of_lt hpc

/-- Settles O51. -/
theorem preloadAndSwapResults : Obligations.PreloadAndSwapResults := by
  unfold Obligations.PreloadAndSwapResults
  intro c u rn rd rm imm12 imm5 ty w s hpc
  refine ⟨advance_nop hpc, fun hrm => (unlessPc_of _ (anyPc_false_iff.2 (List.forall_mem_singleton.2 hrm))).trans
    (advance_nop hpc), fun hcond hrn hrd hrm hnm hnd => forall_mem_pair.2 ⟨?_, ?_⟩⟩ <;>
  exact fun hread hwrite => swap_done hcond hrn hrd hrm hnm hnd hread hwrite hpc

end Sys2Proof.Proofs

/-! The status register instructions (46_status_register.md), the branches (41_branch.md), the exception instructions
(49_exception_coprocessor.md section 1), and the uses of registers that fault (10_state.md R35). -/
namespace Sys2Proof.Proofs
open Sys2Proof Sys2Proof.Machine Sys2Proof.Laws

/-! ### MRS -/

/-- One register that is not R15. -/
theorem anyPc_one {a : Reg} (ha : a ≠ 15) : anyPc [a] = false := anyPc_false_iff.2 (List.forall_mem_singleton.2 ha)

/-- A register written, and the next instruction. -/
theorem advance_setReg {s : State} {rd : Reg} (v : Word) (hpc : s.pc.toNat + 4 < 2 ^ 32) (hrd : rd ≠ 15) :
    advance (s.setReg rd v) = .next (s.after rd v s.cpsr) := by
  rw [setReg_eq _ _ _ hrd]
  exact advance_of_lt hpc

/-- Settles O40. -/
theorem mrsResults : Obligations.MrsResults := by
  unfold Obligations.MrsResults
  rintro c rd s ⟨hcond, hpc⟩ hrd
  have hexec : ∀ r, exec (.mrs c r rd) s = if r then
      match s.spsr? with
      | some p => advance (s.setReg rd p)
      | none => .fault .noSpsr
    else advance (s.setReg rd s.cpsr) := fun r =>
    (whenCond_pass _ hcond).trans (unlessPc_of _ (anyPc_one hrd))
  refine ⟨?_, fun psr hpsr => ?_, fun hnone => ?_⟩
  · exact (hexec false).trans (advance_setReg _ hpc hrd)
  · rw [hexec, if_pos rfl, hpsr]
    exact advance_setReg _ hpc hrd
  · rw [hexec, if_pos rfl, hnone]

/-! ### MSR -/

/-- The bytes a mask selects, as the statement writes them (46_status_register.md R403). -/
theorem byteMask_eq (mask : BitVec 4) :
    let field := fun (k : Nat) => if mask.getLsbD k then (0xFF : Word) <<< (8 * k) else 0
    byteMask mask = field 0 ||| field 1 ||| field 2 ||| field 3 := by
  revert mask; decide

/-- User mode is not privileged. -/
theorem user_not_privileged {s : State} (h : modeBits s.cpsr = 0b10000) : s.privileged = false := by
  rw [State.privileged, State.mode, h]; rfl

/-- An MSR, its condition passing and its register allowed, is one `msr` (R404, R405). -/
theorem exec_msr {c : Cond} {r : Bool} {mask rot : BitVec 4} {imm8 : BitVec 8} {rm : Reg} {s : State}
    (hcond : conditionPassed c s = true) (hrm : rm ≠ 15) :
    exec (.msrImm c r mask rot imm8) s = msr s r mask ((imm8.setWidth 32 : Word).rotateRight (2 * rot.toNat)) ∧
      exec (.msrReg c r mask rm) s = msr s r mask (s.reg rm) :=
  ⟨whenCond_pass _ hcond, (whenCond_pass _ hcond).trans (unlessPc_of _ (anyPc_one hrm))⟩

/-- An MSR of an operand with a reserved bit (R403). -/
theorem msr_reserved {s : State} {r : Bool} {mask : BitVec 4} {v : Word} (h : v &&& 0x06F0FC00 ≠ 0) :
    msr s r mask v = .fault .reservedPsrBit :=
  if_pos (bne_iff_ne.2 h)

/-- An MSR of an operand without one, to the CPSR or the SPSR. -/
theorem msr_allocated {s : State} {r : Bool} {mask : BitVec 4} {v : Word} (h : v &&& 0x06F0FC00 = 0) :
    msr s r mask v = if r then msrSpsr s mask v else msrCpsr s mask v :=
  if_neg (by simpa [unallocMask] using h)

/-- In User mode the mode stays legal, whatever user bits are written. -/
theorem modeBits_userMask (s : State) (mask : BitVec 4) (v : Word) :
    modeBits (withMask s.cpsr (byteMask mask &&& userMask) v) = modeBits s.cpsr := by
  apply BitVec.eq_of_getLsbD_eq
  intro i hi
  have hmask : (byteMask mask &&& userMask).getLsbD i = false := by
    rw [BitVec.getLsbD_and]
    have : userMask.getLsbD i = false := by interval_cases i <;> rfl
    rw [this, Bool.and_false]
  simp only [modeBits, BitVec.getLsbD_setWidth, hi, decide_true, Bool.true_and]
  rw [getLsbD_withMask _ _ _ _ (by omega), hmask]; rfl

/-- An MSR to the CPSR in User mode. -/
theorem msrCpsr_user {s : State} {mask : BitVec 4} {v : Word} (h : modeBits s.cpsr = 0b10000) :
    msrCpsr s mask v = advance { s with cpsr := withMask s.cpsr (byteMask mask &&& userMask) v } := by
  have hpriv := user_not_privileged h
  have hlegal : (modeOfNumber (modeBits (withMask s.cpsr (byteMask mask &&& userMask) v))).isNone = false := by
    rw [modeBits_userMask, h]; rfl
  simp [msrCpsr, msrCpsrMask, hpriv, hlegal]

/-- An MSR to the CPSR in a privileged mode. -/
theorem msrCpsr_privileged {s : State} {mask : BitVec 4} {v : Word} (h : s.privileged = true) :
    msrCpsr s mask v = if v &&& 0x01000020 ≠ 0 then .fault .stateBits
      else if legalMode (withMask s.cpsr (byteMask mask &&& 0xF80F03DF) v) = false then .fault .illegalMode
      else advance { s with cpsr := withMask s.cpsr (byteMask mask &&& 0xF80F03DF) v } := by
  have hmask : msrCpsrMask s mask = byteMask mask &&& 0xF80F03DF := by
    rw [msrCpsrMask, h]; rfl
  simp only [msrCpsr, hmask, h, stateMask, Bool.true_and, bne_iff_ne, legalMode, Option.isNone_iff_eq_none]
  split_ifs <;> simp_all

/-- An MSR to the SPSR, in a mode that has one. -/
theorem msrSpsr_of {s : State} {mask : BitVec 4} {v : Word} {k : Fin 5} (h : s.mode.spsrIndex = some k) :
    msrSpsr s mask v = advance { s with spsr := s.spsr.set k (withMask (s.spsr.get k) (byteMask mask &&& 0xF90F03FF) v) } := by
  simp only [msrSpsr, State.spsr?, State.setSpsrOf, h, Option.map_some]
  rfl

/-- An MSR to the SPSR, in a mode that has none. -/
theorem msrSpsr_none {s : State} {mask : BitVec 4} {v : Word} (h : s.mode.spsrIndex = none) :
    msrSpsr s mask v = .fault .noSpsr := by
  rw [msrSpsr, State.spsr?, h]; rfl

/-- The next instruction after a change that leaves the PC. -/
theorem advance_of_pc {s t : State} (hpc : s.pc.toNat + 4 < 2 ^ 32) (ht : t.pc = s.pc) :
    advance t = .next { t with pc := s.pc + 4 } := by
  rw [← ht] at hpc ⊢
  exact advance_of_lt hpc

/-- Settles O41. -/
theorem msrResults : Obligations.MsrResults := by
  unfold Obligations.MsrResults
  rintro c r mask rot imm8 rm s ⟨hcond, hpc⟩ hrm p hp v field bytes written all
  have hexec : exec p.1 s = msr s r mask v := by
    obtain ⟨himm, hreg⟩ := exec_msr (r := r) (mask := mask) (rot := rot) (imm8 := imm8) hcond hrm
    exact forall_mem_pair (P := fun p : Instr × Word => exec p.1 s = msr s r mask p.2).2 ⟨himm, hreg⟩ p hp
  have hwritten : ∀ old allowed, written old allowed = withMask old (byteMask mask &&& allowed) v := fun old allowed => by
    rw [byteMask_eq]; rfl
  refine ⟨fun h => hexec.trans (msr_reserved h), fun h hr huser => ?_, fun h hr hpriv => ?_, fun h hr => ?_⟩
  · rw [hexec, msr_allocated h, hr, hwritten]
    exact (msrCpsr_user huser).trans (advance_of_pc hpc rfl)
  · have hcpsr : exec p.1 s = if v &&& 0x01000020 ≠ 0 then .fault .stateBits
        else if legalMode all = false then .fault .illegalMode else advance { s with cpsr := all } := by
      rw [hexec, msr_allocated h, hr, show all = withMask s.cpsr (byteMask mask &&& 0xF80F03DF) v from hwritten _ _]
      exact msrCpsr_privileged hpriv
    refine ⟨fun hstate => hcpsr.trans (if_pos hstate), fun hstate hlegal => ?_, fun hstate hlegal => ?_⟩
    · rw [hcpsr, if_neg (not_not_intro hstate), if_neg (ne_false_of_eq_true hlegal)]
      exact advance_of_pc hpc rfl
    · rw [hcpsr, if_neg (not_not_intro hstate), if_pos hlegal]
  · have hspsr : exec p.1 s = msrSpsr s mask v := by rw [hexec, msr_allocated h, hr, if_pos rfl]
    refine ⟨fun k hk => ?_, fun hk => hspsr.trans (msrSpsr_none hk)⟩
    rw [hspsr, msrSpsr_of hk, hwritten]
    exact advance_of_pc hpc rfl

/-! ### CPS and SETEND -/

/-- The forms of CPS that are inconsistent (R406). -/
theorem badCps_iff {imod : BitVec 2} {mm a i f : Bool} {mode : BitVec 5} : badCps imod mm a i f mode = true ↔
    imod = 1 ∨ (imod = 0 ∧ (mm = false ∨ a = true ∨ i = true ∨ f = true)) ∨
      (2 ≤ imod.toNat ∧ a = false ∧ i = false ∧ f = false) ∨ (mm = false ∧ mode ≠ 0) := by
  have htwo : imod.getLsbD 1 = true ↔ 2 ≤ imod.toNat := by revert imod; decide
  simp only [badCps, Bool.or_eq_true, Bool.and_eq_true, Bool.not_eq_true', beq_iff_eq, bne_iff_ne, htwo, or_assoc, and_assoc]

/-- The bit `1 <<< k` where `c`. -/
def bitIf (c : Bool) (k : Nat) : Word := if c then (1 : Word) <<< k else 0

/-- A bit written where `c`, as bits set or cleared. -/
theorem withBit_where (p : Word) (c v : Bool) (k : Nat) :
    (if c then withBit p k v else p) = if v then p ||| bitIf c k else p &&& ~~~bitIf c k := by
  cases c
  · have hkeep : p &&& ~~~(0 : Word) = p := BitVec.and_allOnes
    cases v
    · exact hkeep.symm
    · exact BitVec.or_zero.symm
  · cases v <;> rfl

/-- The masks CPS names, written one after the other or at once (R406). -/
theorem cpsPsr_none (p : Word) (imod : BitVec 2) (a i f : Bool) :
    let bits := bitIf (imod.getLsbD 1 && a) 8 ||| bitIf (imod.getLsbD 1 && i) 7 ||| bitIf (imod.getLsbD 1 && f) 6
    cpsPsr p imod a i f none = if imod.getLsbD 0 then p ||| bits else p &&& ~~~bits := by
  simp only [cpsPsr, withBit_where]
  cases imod.getLsbD 0
  · simp only [Bool.false_eq_true, if_false, BitVec.not_or, BitVec.and_assoc]
  · simp only [if_true, BitVec.or_assoc]

/-- Bit 1 of a two-bit field. -/
theorem getLsbD_one_iff : ∀ imod : BitVec 2, imod.getLsbD 1 = true ↔ 2 ≤ imod.toNat := by decide

/-- Bit 0 of a two-bit field that is not 1. -/
theorem getLsbD_zero_iff : ∀ imod : BitVec 2, imod ≠ 1 → (imod.getLsbD 0 = true ↔ imod = 3) := by decide

/-- The number of the mode a number names. -/
theorem number_of_modeOfNumber : ∀ (mode : BitVec 5) (m : Mode), modeOfNumber mode = some m → m.number = mode := by
  intro mode
  have hsome : ∀ mode : BitVec 5, (modeOfNumber mode).all (fun m => m.number == mode) = true := by decide
  intro m h
  have hm := hsome mode
  rw [h] at hm
  exact beq_iff_eq.1 hm

/-- A mode's number written. -/
theorem withMode_number {p : Word} {mode : BitVec 5} {m : Mode} (h : modeOfNumber mode = some m) :
    withMode p m = (p &&& 0xFFFFFFE0) ||| mode.setWidth 32 := by
  have hlow : ∀ mode : BitVec 5, (mode.setWidth 32 : Word) &&& 0x1F = mode.setWidth 32 := by decide
  rw [withMode, withMask, number_of_modeOfNumber mode m h, hlow]
  rfl

/-- CPS past its checks of the operands (R406). -/
theorem exec_cps {imod : BitVec 2} {mm a i f : Bool} {mode : BitVec 5} {s : State} (hbad : badCps imod mm a i f mode = false)
    (hmode : mm = true → (modeOfNumber mode).isSome = true) : exec (.cps imod mm a i f mode) s =
      if s.privileged then
        advance { s with cpsr := cpsPsr s.cpsr imod a i f (if mm then modeOfNumber mode else none) }
      else advance s := by
  have hlegal : (mm && (modeOfNumber mode).isNone) = false := by
    cases mm
    · rfl
    · rw [Bool.true_and, Option.isNone_eq_false_iff]
      exact hmode rfl
  change (if badCps imod mm a i f mode then _ else if mm && (modeOfNumber mode).isNone then _ else _) = _
  rw [hbad, hlegal]; rfl

/-- Settles O42. -/
theorem cpsAndSetendResults : Obligations.CpsAndSetendResults := by
  unfold Obligations.CpsAndSetendResults
  intro imod mm a i f e mode s hpc bad on named bits masks
  have hbad : bad ↔ badCps imod mm a i f mode = true := badCps_iff.symm
  refine ⟨fun h => if_pos (hbad.1 h), fun h hmm hnone => ?_, fun h hmode => ?_, ?_⟩
  · have hillegal : (mm && (modeOfNumber mode).isNone) = true := by rw [hmm, hnone]; rfl
    exact (if_neg (mt hbad.2 h)).trans (if_pos hillegal)
  · have hexec := exec_cps (s := s) (Bool.eq_false_iff.2 (mt hbad.2 h)) hmode
    refine ⟨fun huser => ?_, fun hpriv => ?_⟩
    · rw [hexec, huser]
      exact advance_of_lt hpc
    · have hnamed : ∀ b k, bitIf (imod.getLsbD 1 && b) k = named b k := fun b k => by
        simp only [bitIf, Bool.and_eq_true, getLsbD_one_iff, named]
      have hmasks : cpsPsr s.cpsr imod a i f none = masks := by
        rw [cpsPsr_none, hnamed, hnamed, hnamed]
        exact if_congr (getLsbD_zero_iff imod fun h1 => h (Or.inl h1)) rfl rfl
      have hpsr : cpsPsr s.cpsr imod a i f (if mm then modeOfNumber mode else none) =
          if mm then (masks &&& 0xFFFFFFE0) ||| mode.setWidth 32 else masks := by
        cases mm with
        | false => exact hmasks
        | true =>
          obtain ⟨m, hm⟩ := Option.isSome_iff_exists.1 (hmode rfl)
          rw [if_pos rfl, if_pos rfl, hm, ← withMode_number hm, ← hmasks]
          rfl
      rw [hexec, hpriv, if_pos rfl, hpsr]
      exact advance_of_pc hpc rfl
  · cases e <;> exact advance_of_pc hpc rfl

/-! ### Branches -/

/-- Settles O43. -/
theorem branchResults : Obligations.BranchResults := by
  unfold Obligations.BranchResults
  intro c h imm24 s exact target linked
  have htarget : branchTarget s imm24 = target := branchTarget_eq s imm24
  have hlink : s.link = { s with gpr := linked } := setReg_eq s 14 (s.pc + 4) (by decide)
  refine ⟨fun hcond => ⟨fun hlow hhigh => ?_, fun hout => ?_, ?_⟩, ?_⟩
  · refine (whenCond_pass _ hcond).trans ((if_pos ⟨hlow, hhigh⟩).trans ?_)
    rw [htarget]; rfl
  · refine (whenCond_pass _ hcond).trans (if_neg fun hin => ?_)
    exact hout.elim (Int.not_lt.2 hin.1) (Int.not_le.2 hin.2)
  · refine (whenCond_pass _ hcond).trans ?_
    rw [htarget, hlink]; rfl
  · change Host.Outcome.next { s.link with cpsr := withBit s.cpsr 5 true, pc := branchTarget s imm24 + (if h then 2 else 0) } = _
    rw [htarget, hlink]; rfl

/-- Settles O44. -/
theorem branchExchangeResults : Obligations.BranchExchangeResults := by
  unfold Obligations.BranchExchangeResults
  intro c rm s hcond v psr target
  have hbx : exec (.bx c rm) s = interwork s v := whenCond_pass _ hcond
  have hblx : rm ≠ 15 → exec (.blx2 c rm) s = interwork s.link v := fun hrm =>
    (whenCond_pass _ hcond).trans (unlessPc_of _ (anyPc_one hrm))
  have hbxj : rm ≠ 15 → exec (.bxj c rm) s = if s.platform.jazellePresent then .refused .jazelleEntry else interwork s v :=
    fun hrm => (whenCond_pass _ hcond).trans (unlessPc_of _ (anyPc_one hrm))
  have habsent : rm ≠ 15 → s.platform.jazellePresent = false → exec (.bxj c rm) s = interwork s v := fun hrm hj =>
    (hbxj hrm).trans (if_neg (ne_true_of_eq_false hj))
  have hlink : s.link = { s with gpr := s.gpr.set (cell s.mode 14) (s.pc + 4) } := setReg_eq s 14 (s.pc + 4) (by decide)
  refine ⟨fun hv => ⟨hbx.trans (interwork_branch hv), fun hrm => ⟨?_, fun hj => (habsent hrm hj).trans (interwork_branch hv)⟩⟩,
    fun hv => ⟨hbx.trans (interwork_fault hv), fun hrm =>
      ⟨(hblx hrm).trans (interwork_fault hv), fun hj => (habsent hrm hj).trans (interwork_fault hv)⟩⟩,
    fun hrm hj => (hbxj hrm).trans (if_pos hj)⟩
  rw [hblx hrm, interwork_branch hv, hlink]

/-! ### Exception instructions -/

/-- BKPT, its condition passing (R501). -/
theorem exec_bkpt {c : Cond} {imm16 : BitVec 16} {s : State} (hcond : conditionPassed c s = true) :
    exec (.bkpt c imm16) s = if c ≠ .al then .fault .bkptCondition
      else if s.platform.debugOverridesBkpt then .refused .debugOverride else .next (takeException .prefetchAbort s) :=
  whenCond_pass _ hcond

/-- Settles O56. -/
theorem exceptionInstructions : Obligations.ExceptionInstructions := by
  unfold Obligations.ExceptionInstructions
  intro c imm24 imm16 s hcond
  have hal : exec (.bkpt .al imm16) s =
      if s.platform.debugOverridesBkpt then .refused .debugOverride else .next (takeException .prefetchAbort s) :=
    (exec_bkpt rfl).trans (if_neg (not_not_intro rfl))
  exact ⟨whenCond_pass _ hcond, whenCond_pass _ hcond, fun h => hal.trans (if_neg (ne_true_of_eq_false h)),
    fun h => hal.trans (if_pos h), fun hc => (exec_bkpt hcond).trans (if_pos hc)⟩

/-! ### The registers that fault -/

/-- R15 among the fields checked (10_state.md R35). -/
theorem unlessPc_fault_of_mem {rs : List Reg} (o : Out) (h : (15 : Reg) ∈ rs) : unlessPc rs o = .fault .pcOperand :=
  unlessPc_fault o (anyPc_iff.2 h)

/-- R15 among the fields an instruction with a condition checks. -/
theorem whenCond_unlessPc_fault {c : Cond} {s : State} {rs : List Reg} {o : Out} (hcond : conditionPassed c s = true)
    (h : (15 : Reg) ∈ rs) : whenCond c s (unlessPc rs o) = .fault .pcOperand :=
  (whenCond_pass _ hcond).trans (unlessPc_fault_of_mem o h)

/-- A post-indexed access writes its base back (47_load_store.md R425). -/
theorem writesBack_post : writesBack .post = true := rfl

/-- R15 in a field where it is not allowed (R35). -/
theorem pcField_faults {i : Instr} {s : State} (hpass : ∀ c, condOf i = some c → conditionPassed c s = true)
    (h : (15 : Reg) ∈ noPcFields i) : exec i s = .fault .pcOperand := by
  cases i
  case rfe am w rn => exact unlessPc_fault_of_mem _ h
  case pldReg u rn imm ty rm => exact unlessPc_fault_of_mem _ h
  all_goals simp only [noPcFields, List.not_mem_nil] at h
  all_goals exact whenCond_unlessPc_fault (hpass _ rfl) (by simpa [writesBack_post, or_comm, or_left_comm, or_assoc] using h)

/-- Two equal registers that must differ (93_implementation_defined.md section 2). -/
theorem unlessSame_fault {a : Reg} (o : Out) : unlessSame a a o = .fault .sameRegister := if_pos rfl

/-- The second of two registers is the first's equal, whatever the one before. -/
theorem unlessSame_fault_second {a b : Reg} (o : Out) : unlessSame a b (unlessSame a a o) = .fault .sameRegister := by
  rw [unlessSame_fault]; exact ite_self _

/-- A transfer that would write its base back to the register it transfers (47_load_store.md R426). -/
theorem exec_transfer_same {k : Transfer} {o : Offset} {c : Cond} {im : IndexMode} {u : Bool} {d : Reg} {s : State}
    (hcond : conditionPassed c s = true) (hd : d ≠ 15) (ho : ∀ i t, o ≠ .reg i t 15) (hwb : writesBack (k.index im) = true) :
    exec (k.form o c im u d d) s = .fault .writebackBase := by
  have hoffset : ∀ r ∈ (offsetReg o).toList, r ≠ 15 := by
    cases o with
    | imm v => exact fun r hr => absurd hr List.not_mem_nil
    | reg i t rm => exact List.forall_mem_singleton.2 fun h => ho i t (by rw [h])
  have hallowed : anyPc ((offsetReg o).toList ++ (if writesBack (k.index im) then [d] else []) ++
      (if noPcRegister k then [d] else [])) = false := by
    rw [anyPc_false_iff, hwb, if_pos rfl]
    intro r hr
    rw [List.mem_append, List.mem_append, List.mem_singleton] at hr
    obtain (hr | rfl) | hr := hr
    · exact hoffset r hr
    · exact hd
    · split at hr
      · rw [List.mem_singleton.1 hr]; exact hd
      · exact absurd hr List.not_mem_nil
  have hchecks : ∀ out, lsOp c (noPcRegister k) (k.index im) d d (offsetReg o) s out = .fault .writebackBase := fun out => by
    rw [lsOp, whenCond_pass _ hcond, lsChecks, unlessPc_of _ hallowed, hwb, beq_self_eq_true]
    rfl
  cases hk : k.stores
  · rw [exec_load hk]; exact hchecks _
  · rw [exec_store hk]; exact hchecks _

/-- R15 as the offset register or the written-back base of LDRD and STRD (R435, R443). -/
theorem pairChecks_pc {load : Bool} {im : IndexMode} {rn rd : Reg} {rm : Option Reg} {s : State} (out : Out)
    (heven : rd.getLsbD 0 = false) (h14 : rd ≠ 14) (h : rm = some 15 ∨ (writesBack im = true ∧ rn = 15)) :
    pairChecks load im rn rd rm s out = .fault .pcOperand := by
  rw [pairChecks_even out heven h14]
  apply unlessPc_fault_of_mem
  obtain rfl | ⟨hwb, rfl⟩ := h
  · exact List.mem_append_left _ (List.mem_singleton_self _)
  · rw [hwb]; exact List.mem_append_right _ (List.mem_singleton_self _)

/-- The written-back base among the pair (R435, R443). -/
theorem pairChecks_base {load : Bool} {im : IndexMode} {rn rd : Reg} {rm : Option Reg} {s : State} (out : Out)
    (heven : rd.getLsbD 0 = false) (h14 : rd ≠ 14) (hwb : writesBack im = true) (hrm : ∀ r, rm = some r → r ≠ 15)
    (h : rn = rd ∨ rn = rd + 1) : pairChecks load im rn rd rm s out = .fault .writebackBase := by
  obtain ⟨hrd, hrd1⟩ := pair_ne_pc heven h14
  have hrn : rn ≠ 15 := by obtain rfl | rfl := h <;> assumption
  have hallowed : anyPc (rm.toList ++ (if writesBack im then [rn] else [])) = false := by
    rw [anyPc_false_iff, hwb, if_pos rfl, List.forall_mem_append]
    exact ⟨fun r hr => hrm r (Option.mem_toList.1 hr), List.forall_mem_singleton.2 hrn⟩
  rw [pairChecks_even out heven h14, unlessPc_of _ hallowed, if_pos]
  rw [hwb, Bool.true_and, Bool.or_eq_true, beq_iff_eq, beq_iff_eq]
  exact h

/-- The offset register of an LDRD among the pair (R435). -/
theorem pairChecks_offset {im : IndexMode} {rn rd rm : Reg} {s : State} (out : Out)
    (heven : rd.getLsbD 0 = false) (h14 : rd ≠ 14) (hbase : PairBase im rn rd)
    (h : rm = rd ∨ rm = rd + 1) : pairChecks true im rn rd (some rm) s out = .fault .sameRegister := by
  obtain ⟨hrd, hrd1⟩ := pair_ne_pc heven h14
  have hrm : rm ≠ 15 := by obtain rfl | rfl := h <;> assumption
  have hallowed := pairFields_allowed (rm := some rm) (fun r hr => Option.some.inj hr ▸ hrm) hbase
  rw [pairChecks_even out heven h14, unlessPc_of _ hallowed, if_neg, if_pos]
  · rw [Bool.true_and, Bool.or_eq_true, beq_iff_eq, beq_iff_eq, Option.some_inj, Option.some_inj]
    exact h
  · rw [Bool.and_eq_true, Bool.or_eq_true, beq_iff_eq, beq_iff_eq]
    exact fun ⟨hwb, hrn⟩ => hrn.elim (hbase hwb).2.1 (hbase hwb).2.2

/-- A form that allows registers allows each part of them. -/
theorem allows_of_subset {o : Operand2} {regs sub : List Reg} (hsub : sub ⊆ regs) (h : o.allows regs = true) :
    o.allows sub = true := by
  cases o with
  | reg rs ty rm =>
    have hregs : anyPc (regs ++ [rs, rm]) = false := Bool.not_eq_true' _ ▸ h
    rw [anyPc_false_iff, List.forall_mem_append] at hregs
    have hparts := anyPc_false_iff.2 (List.forall_mem_append.2 ⟨fun r hr => hregs.1 r (hsub hr), hregs.2⟩)
    exact congrArg (! ·) hparts
  | shift imm5 ty rm => rfl
  | imm rot imm8 => rfl

/-- A result that is not written to R15, past the last word (10_state.md R39). -/
theorem dpWrite_wrap {s : State} {r : DpResult} {sf : Bool} {rd : Option Reg} (hwrap : 2 ^ 32 ≤ s.pc.toNat + 4)
    (hrd : ∀ d, rd = some d → d ≠ 15) : dpWrite s sf rd r = .fault .pcWrap := by
  cases rd with
  | none => exact advance_wrap hwrap
  | some d =>
    have hd := hrd d rfl
    rw [dpWrite, if_neg hd, setReg_eq _ _ _ hd]
    cases sf <;> exact advance_wrap hwrap

/-- A data-processing instruction at the last word (R39). -/
theorem exec_dp_wrap {op : DpOp} {o : Operand2} {c : Cond} {sf : Bool} {rn rd : Reg} {s : State}
    (hcond : conditionPassed c s = true) (hwrap : 2 ^ 32 ≤ s.pc.toNat + 4) (hrd : rd ≠ 15) (hallow : o.allows [rn, rd] = true) :
    exec (dpForm op o c sf rn rd) s = .fault .pcWrap := by
  have hfields : (firstField op rn).toList ++ (destField op rd).toList ⊆ [rn, rd] := by
    cases op <;> simp [firstField, destField, isCompare]
  have hdest : ∀ d, destField op rd = some d → d ≠ 15 := fun d hd => by
    rw [destField] at hd
    split at hd
    · cases hd
    · exact Option.some.inj hd ▸ hrd
  rw [exec_dp, whenCond_pass _ hcond, guarded_of_allows _ (allows_of_subset hfields hallow)]
  exact dpWrite_wrap hwrap hdest

/-- Settles O39. -/
theorem forbiddenRegistersFault : Obligations.ForbiddenRegistersFault := by
  unfold Obligations.ForbiddenRegistersFault
  intro c s hcond
  refine ⟨fun i => pcField_faults, ?_, ?_, fun k o im u d hd ho hwb => exec_transfer_same hcond hd ho hwb, ?_, ?_⟩
  · intro sf x y d rs rm hd hrs hrm i hi
    have hlong : ∀ out, whenCond c s (unlessPc [d, d, rs, rm] (unlessSame d d out)) = .fault .sameRegister := fun out =>
      (whenCond_pass _ hcond).trans ((unlessPc_of _ (anyPc_four hd hd hrs hrm)).trans (unlessSame_fault out))
    fin_cases hi <;> exact hlong _
  · intro d m hd hm
    have hfirst : ∀ a b e, anyPc [a, b, e] = false → ∀ q out,
        whenCond c s (unlessPc [a, b, e] (unlessSame q q out)) = .fault .sameRegister := fun a b e h q out =>
      (whenCond_pass _ hcond).trans ((unlessPc_of _ h).trans (unlessSame_fault out))
    have hsecond : ∀ a b e, anyPc [a, b, e] = false → ∀ q r out,
        whenCond c s (unlessPc [a, b, e] (unlessSame q r (unlessSame q q out))) = .fault .sameRegister := fun a b e h q r out =>
      (whenCond_pass _ hcond).trans ((unlessPc_of _ h).trans (unlessSame_fault_second out))
    have hddm := anyPc_three hd hd hm
    have hmdd := anyPc_three hm hd hd
    have hdmd := anyPc_three hd hm hd
    simp only [List.forall_mem_cons, List.not_mem_nil, false_implies, implies_true, and_true]
    exact ⟨hfirst _ _ _ hddm _ _, hsecond _ _ _ hmdd _ _ _, hsecond _ _ _ hddm _ _ _, hfirst _ _ _ hdmd _ _,
      hsecond _ _ _ hddm _ _ _, hfirst _ _ _ hdmd _ _⟩
  · intro im u rn rd rm imm8 heven h14 imms regs
    obtain ⟨hli, hlr, hsi, hsr⟩ := exec_doubleword c im u rn rd rm imm8 s
    rw [whenCond_pass _ hcond] at hli hlr hsi hsr
    have himms : ∀ out, (∀ load o, pairChecks load im rn rd none s o = out) → ∀ i ∈ imms, exec i s = out := fun out h =>
      forall_mem_pair.2 ⟨hli.trans (h _ _), hsi.trans (h _ _)⟩
    have hregs : ∀ out, (∀ load o, pairChecks load im rn rd (some rm) s o = out) → ∀ i ∈ regs, exec i s = out := fun out h =>
      forall_mem_pair.2 ⟨hlr.trans (h _ _), hsr.trans (h _ _)⟩
    refine ⟨fun hwb hrn => List.forall_mem_append.2 ⟨?_, ?_⟩, fun hrm => ?_, fun hwb hrn => ⟨?_, fun hrm => ?_⟩, fun hrm hbase => ?_⟩
    · exact himms _ fun load o => pairChecks_pc o heven h14 (Or.inr ⟨hwb, hrn⟩)
    · exact hregs _ fun load o => pairChecks_pc o heven h14 (Or.inr ⟨hwb, hrn⟩)
    · exact hregs _ fun load o => pairChecks_pc o heven h14 (Or.inl (by rw [hrm]))
    · exact himms _ fun load o => pairChecks_base o heven h14 hwb (fun r hr => nomatch hr) hrn
    · exact hregs _ fun load o => pairChecks_base o heven h14 hwb (fun r hr => Option.some.inj hr ▸ hrm) hrn
    · exact hlr.trans (pairChecks_offset _ heven h14 hbase hrm)
  · exact fun hwrap => ⟨fun op o sf rn rd hrd hallow => exec_dp_wrap hcond hwrap hrd hallow,
      fun u e rn imm12 => ⟨advance_wrap hwrap, advance_wrap hwrap⟩⟩

end Sys2Proof.Proofs

/-! Load and store multiple, RFE and SRS (48_load_store_multiple_semaphore.md): the registers of a list, what a load of several
registers leaves in them, and what each instruction does where all its accesses are done. -/
namespace Sys2Proof.Proofs
open Sys2Proof Sys2Proof.Machine Sys2Proof.Laws

/-! ### The registers of a list -/

/-- The registers a list names (48_load_store_multiple_semaphore.md R470). -/
theorem mem_regList {list : BitVec 16} {r : Reg} : r ∈ regList list ↔ list.getLsbD r.toNat = true := by
  simp only [regList, List.mem_map, List.mem_filter, List.mem_range]
  constructor
  · rintro ⟨i, ⟨hi, hbit⟩, rfl⟩
    rwa [BitVec.toNat_ofNat, Nat.mod_eq_of_lt hi]
  · exact fun h => ⟨r.toNat, ⟨r.isLt, h⟩, BitVec.ofNat_toNat _ _⟩

/-- They rise (R473). -/
theorem regList_rising (list : BitVec 16) : (regList list).Pairwise (fun r q => r.toNat < q.toNat) := by
  rw [regList, List.pairwise_map]
  refine (List.pairwise_lt_range.sublist List.filter_sublist).imp_of_mem fun {i j} hi hj hij => ?_
  have hlt : ∀ k ∈ (List.range 16).filter (fun i => list.getLsbD i), k < 16 := fun k hk =>
    List.mem_range.1 (List.mem_filter.1 hk).1
  rwa [BitVec.toNat_ofNat, BitVec.toNat_ofNat, Nat.mod_eq_of_lt (hlt i hi), Nat.mod_eq_of_lt (hlt j hj)]

/-- No register is named twice. -/
theorem regList_nodup (list : BitVec 16) : (regList list).Nodup :=
  (regList_rising list).imp fun h e => Nat.ne_of_lt h (congrArg BitVec.toNat e)

/-- R15 comes last. -/
theorem regList_eq (list : BitVec 16) : regList list = lowRegs list ++ if list.getLsbD 15 then [15] else [] := by
  have hlow : ∀ i ∈ (List.range 15).filter (fun i => list.getLsbD i), (BitVec.ofNat 4 i != 15) = true := fun i hi =>
    (show ∀ i < 15, (BitVec.ofNat 4 i != 15) = true by decide) i (List.mem_range.1 (List.mem_filter.1 hi).1)
  have hsplit : regList list = ((List.range 15).filter (fun i => list.getLsbD i)).map (BitVec.ofNat 4) ++
      if list.getLsbD 15 then [15] else [] := by
    rw [regList, List.range_succ, List.filter_append, List.map_append]
    cases h : list.getLsbD 15
    · rw [List.filter_cons_of_neg (ne_true_of_eq_false h)]; rfl
    · rw [List.filter_cons_of_pos h]; rfl
  have hkeep : lowRegs list = ((List.range 15).filter (fun i => list.getLsbD i)).map (BitVec.ofNat 4) := by
    rw [lowRegs, hsplit, List.filter_append, List.filter_map, Function.comp_def, List.filter_eq_self.2 hlow]
    cases list.getLsbD 15
    · exact List.append_nil _
    · exact List.append_nil _
  rw [hkeep]
  exact hsplit

/-- A register other than R15 is as far down the list without R15. -/
theorem getElem_lowRegs {list : BitVec 16} {j : Nat} {r : Reg} (h : (regList list)[j]? = some r) (hr : r ≠ 15) :
    (lowRegs list)[j]? = some r := by
  rw [regList_eq] at h
  by_cases hj : j < (lowRegs list).length
  · rwa [List.getElem?_append_left hj] at h
  · rw [List.getElem?_append_right (Nat.not_lt.1 hj)] at h
    have hmem := List.mem_of_getElem? h
    split at hmem
    · exact absurd (List.mem_singleton.1 hmem) hr
    · exact absurd hmem List.not_mem_nil

/-- None of them is R15. -/
theorem lowRegs_ne_pc {list : BitVec 16} {r : Reg} (h : r ∈ lowRegs list) : r ≠ 15 := bne_iff_ne.1 (List.mem_filter.1 h).2

theorem mem_lowRegs {list : BitVec 16} {r : Reg} : r ∈ lowRegs list ↔ list.getLsbD r.toNat = true ∧ r ≠ 15 := by
  rw [lowRegs, List.mem_filter, mem_regList, bne_iff_ne]

/-- A register written among several, each once, holds its value. -/
theorem setRegsOf_gpr_mem (m : Mode) (rs : List Reg) : ∀ (s : State) (vs : List Word), rs.Nodup → (∀ r ∈ rs, r ≠ 15) →
    ∀ (j : Nat) (r : Reg) (v : Word), rs[j]? = some r → vs[j]? = some v → (s.setRegsOf m rs vs).gpr.get (cell m r) = v := by
  induction rs with
  | nil => intro s vs _ _ j r v h; simp at h
  | cons q rs ih =>
    intro s vs hnodup hpc j r v hr hv
    obtain ⟨hq, hnodup⟩ := List.nodup_cons.1 hnodup
    obtain ⟨hq15, hpc⟩ := List.forall_mem_cons.1 hpc
    cases vs with
    | nil => simp at hv
    | cons w vs =>
      rw [State.setRegsOf]
      cases j with
      | zero =>
        obtain rfl : q = r := by simpa using hr
        obtain rfl : w = v := by simpa using hv
        rw [setRegsOf_gpr_other _ _ _ fun p hp hp15 e => hq (cell_inj m q p hq15 hp15 e ▸ hp), setRegOf_gpr _ _ _ _ hq15, get_set_same]
      | succ j => exact ih _ vs hnodup hpc j r v (by simpa using hr) (by simpa using hv)

/-! ### What a load of several registers leaves -/

/-- The registers after a load of the list `list` of mode `m` and the writeback of `v` to the base register. -/
def loaded (s : State) (m : Mode) (list : BitVec 16) (ws : List Word) (w : Bool) (rn : Reg) (v : Word) : Vector Word 30 :=
  let t := s.setRegsOf m (lowRegs list) ws
  if w then t.gpr.set (cell s.mode rn) v else t.gpr

/-- Nothing but registers is changed. -/
theorem setRegsOf_eq (s : State) (m : Mode) (list : BitVec 16) (ws : List Word) (rn : Reg) (v : Word) :
    s.setRegsOf m (lowRegs list) ws = { s with gpr := loaded s m list ws false rn v } := by
  obtain ⟨hpc, hcpsr, hspsr, hmonitor, hmem, hwritten, hcoprocs, hlines, hfree, hplatform⟩ :=
    setRegsOf_fields m (lowRegs list) s ws
  rw [← hpc, ← hcpsr, ← hspsr, ← hmonitor, ← hmem, ← hwritten, ← hcoprocs, ← hlines, ← hfree, ← hplatform]
  rfl

/-- A register of the list holds its word; the base register is none of them where it is written back. -/
theorem loaded_mem {s : State} {m : Mode} {list : BitVec 16} {ws : List Word} {w : Bool} {rn : Reg} {v : Word}
    (hbase : w = true → m = s.mode ∧ rn ≠ 15 ∧ list.getLsbD rn.toNat = false) {j : Nat} {r : Reg} {x : Word}
    (hr : (regList list)[j]? = some r) (hx : ws[j]? = some x) (hr15 : r ≠ 15) :
    (loaded s m list ws w rn v).get (cell m r) = x := by
  have hlow := getElem_lowRegs hr hr15
  have hget : (s.setRegsOf m (lowRegs list) ws).gpr.get (cell m r) = x :=
    setRegsOf_gpr_mem m _ s ws ((regList_nodup list).filter _) (fun r => lowRegs_ne_pc) j r x hlow hx
  cases w with
  | false => exact hget
  | true =>
    obtain ⟨rfl, hrn, hnot⟩ := hbase rfl
    have hne : cell s.mode r ≠ cell s.mode rn := fun e => by
      have hmem := mem_regList.1 (List.mem_of_getElem? hr)
      rw [cell_inj _ r rn hr15 hrn e, hnot] at hmem
      cases hmem
    exact (get_set_other _ _ _ _ hne).trans hget

/-- The base register holds the value written back. -/
theorem loaded_base (s : State) (m : Mode) (list : BitVec 16) (ws : List Word) (rn : Reg) (v : Word) :
    (loaded s m list ws true rn v).get (cell s.mode rn) = v := get_set_same _ _ _

/-- The other registers are as they were. -/
theorem loaded_other {s : State} {m : Mode} {list : BitVec 16} {ws : List Word} {w : Bool} {rn : Reg} {v : Word} {k : Fin 30}
    (hlist : ∀ r : Reg, r ≠ 15 → list.getLsbD r.toNat = true → k ≠ cell m r) (hbase : w = true → k ≠ cell s.mode rn) :
    (loaded s m list ws w rn v).get k = s.gpr.get k := by
  have hget : (s.setRegsOf m (lowRegs list) ws).gpr.get k = s.gpr.get k :=
    setRegsOf_gpr_other m _ k (fun r hr hr15 => hlist r hr15 (mem_lowRegs.1 hr).1) s ws
  cases w with
  | false => exact hget
  | true => exact (get_set_other _ _ _ _ (hbase rfl)).trans hget

theorem writeBack_setRegsOf (s : State) (m : Mode) (list : BitVec 16) (ws : List Word) (w : Bool) {rn : Reg} (v : Word) (hrn : rn ≠ 15) :
    (s.setRegsOf m (lowRegs list) ws).writeBack w rn v = { s with gpr := loaded s m list ws w rn v } := by
  rw [setRegsOf_eq s m list ws rn v]
  cases w
  · rfl
  · exact setReg_eq _ _ _ hrn

/-! ### LDM -/

/-- The checks common to LDM and STM, past the condition (48_load_store_multiple_semaphore.md R479). -/
theorem blockChecks_pass {c : Cond} {rn : Reg} {list : BitVec 16} {s : State} (out : Out) (hcond : conditionPassed c s = true)
    (hrn : rn ≠ 15) : blockChecks c rn list s out = if list = 0 then .fault .emptyList else out :=
  (whenCond_pass _ hcond).trans (unlessPc_of _ (anyPc_one hrn))

/-- A load of several registers whose words are read. -/
theorem loadBlockOf_ok {am : BlockMode} {rn : Reg} {list : BitVec 16} {m : Mode} {s : State} {ws : List Word} (k : List Word → Out)
    (hlen : ws.length = (regList list).length) (hread : s.readableBlock (blockStart am (s.reg rn) ws.length) ws) :
    loadBlockOf am rn list m s k = k ws := by
  simp only [loadBlockOf, ← hlen, loadBlock_ok hread]

/-- Settles O52. -/
theorem loadMultipleResults : Obligations.LoadMultipleResults := by
  unfold Obligations.LoadMultipleResults
  intro c am w rn list ws s hcond hrn
  have hexec : exec (.ldm1 c am w rn list) s = if list = 0 then .fault .emptyList else loadMultiple am w rn list s :=
    blockChecks_pass _ hcond hrn
  have hin : ∀ {r : Reg}, list.getLsbD r.toNat = true → list ≠ 0 := fun h h0 => by
    rw [h0] at h; simp at h
  refine ⟨fun h => hexec.trans (if_pos h), fun hw hbit => ?_, fun hne hbase hlen hread => ?_⟩
  · rw [hexec, if_neg (hin hbit), loadMultiple, hw, hbit]; rfl
  · have hload : exec (.ldm1 c am w rn list) s =
        let t := { s with gpr := loaded s s.mode list ws w rn (blockEnd am (s.reg rn) ws.length) }
        if list.getLsbD 15 then interwork t (ws.getLastD 0) else advance t := by
      have hfree : (w && list.getLsbD rn.toNat) = false := by
        cases w
        · rfl
        · exact hbase rfl
      rw [hexec, if_neg hne, loadMultiple, hfree, if_neg Bool.false_ne_true, loadBlockOf_ok _ hlen hread, ← hlen]
      simp only [writeBack_setRegsOf _ _ _ _ _ _ hrn]
    refine ⟨fun h15 hlast => ?_, fun hend => ⟨loaded s s.mode list ws w rn (blockEnd am (s.reg rn) ws.length), ?_, ?_, ?_, ?_⟩⟩
    · rw [hload, h15]
      exact interwork_fault hlast
    · rw [hload]
      cases h15 : list.getLsbD 15
      · rw [h15] at hend
        exact advance_of_lt hend
      · rw [h15] at hend
        exact interwork_branch hend
    · exact fun j r v hr hv hr15 => loaded_mem (fun hw => ⟨rfl, hrn, hbase hw⟩) hr hv hr15
    · rintro rfl
      exact loaded_base ..
    · intro k hk
      exact loaded_other (fun r hr hbit => hk r hr (Or.inl hbit)) (fun hw => hk rn hrn (Or.inr ⟨hw, rfl⟩))

/-! ### LDM (2) and LDM (3) -/

/-- A list of fifteen registers as one of sixteen. -/
theorem getLsbD_setWidth_list (list : BitVec 15) (r : Reg) : (list.setWidth 16).getLsbD r.toNat = list.getLsbD r.toNat := by
  rw [BitVec.getLsbD_setWidth, decide_eq_true r.isLt, Bool.true_and]

/-- A list with R15 added (48_load_store_multiple_semaphore.md R476). -/
theorem getLsbD_withPc (list : BitVec 15) {r : Reg} (hr : r ≠ 15) : (1#1 ++ list).getLsbD r.toNat = list.getLsbD r.toNat := by
  have hlt : r.toNat < 15 := Nat.lt_of_le_of_ne (Nat.le_of_lt_succ r.isLt) fun h => hr (BitVec.eq_of_toNat_eq h)
  rw [BitVec.getLsbD_append, if_pos hlt]

/-- R15 is in it. -/
theorem getLsbD_withPc_15 (list : BitVec 15) : (1#1 ++ list).getLsbD 15 = true := by
  rw [BitVec.getLsbD_append, if_neg (Nat.lt_irrefl 15)]; rfl

/-- Its registers are those of the list and R15. -/
theorem regList_withPc (list : BitVec 15) : regList (1#1 ++ list) = regList (list.setWidth 16) ++ [15] := by
  have hbits : ∀ i ∈ List.range 15, (1#1 ++ list).getLsbD i = (list.setWidth 16).getLsbD i := fun i hi => by
    have hlt := List.mem_range.1 hi
    rw [BitVec.getLsbD_append, if_pos hlt, BitVec.getLsbD_setWidth, decide_eq_true (Nat.lt_succ_of_lt hlt), Bool.true_and]
  have h15 : ¬(list.setWidth 16).getLsbD 15 = true := by
    rw [show (list.setWidth 16).getLsbD 15 = list.getLsbD 15 from getLsbD_setWidth_list list 15,
      BitVec.getLsbD_of_ge _ _ (Nat.le_refl 15)]
    exact Bool.false_ne_true
  rw [regList, regList, List.range_succ, List.filter_append, List.filter_append, List.filter_cons_of_pos (getLsbD_withPc_15 list),
    List.filter_cons_of_neg h15, List.filter_congr hbits, List.map_append, List.map_append]
  exact congrArg (· ++ _) (List.append_nil _).symm

/-- The modes whose registers are not the User-mode ones (48_load_store_multiple_semaphore.md R475). -/
theorem userOrSystem_iff {s : State} : s.userOrSystem = true ↔ s.mode = .usr ∨ s.mode = .sys := by
  rw [State.userOrSystem, Bool.or_eq_true, beq_iff_eq, beq_iff_eq]

/-- A list of fifteen registers is as empty as the one of sixteen. -/
theorem setWidth_list_eq_zero {list : BitVec 15} : list.setWidth 16 = 0 ↔ list = 0 := by
  constructor
  · intro h
    have hsame : (list.setWidth 16).setWidth 15 = list := by rw [BitVec.setWidth_setWidth_of_le _ (by decide), BitVec.setWidth_eq]
    rw [← hsame, h]; rfl
  · rintro rfl; rfl

/-- LDM (3), its condition passing: R15 is in the list (R476). -/
theorem exec_ldm3 {c : Cond} {am : BlockMode} {w : Bool} {rn : Reg} {list : BitVec 15} {s : State}
    (hcond : conditionPassed c s = true) (hrn : rn ≠ 15) :
    exec (.ldm3 c am w rn list) s = loadReturn am w rn (1#1 ++ list) s := by
  refine (blockChecks_pass _ hcond hrn).trans (if_neg fun h0 => ?_)
  have h15 := getLsbD_withPc_15 list
  rw [h0] at h15
  cases h15

/-- Settles O53. -/
theorem loadMultiplePrivileged : Obligations.LoadMultiplePrivileged := by
  unfold Obligations.LoadMultiplePrivileged
  intro c am w rn list ws s hcond hrn
  have hldm2 : exec (.ldm2 c am rn list) s = if list.setWidth 16 = 0 then .fault .emptyList else loadUser am rn (list.setWidth 16) s :=
    blockChecks_pass _ hcond hrn
  have hldm3 : exec (.ldm3 c am w rn list) s = loadReturn am w rn (1#1 ++ list) s := exec_ldm3 hcond hrn
  have hbase : (1#1 ++ list).getLsbD rn.toNat = list.getLsbD rn.toNat := getLsbD_withPc list hrn
  have hmem : ∀ {j : Nat} {r : Reg}, (regList (list.setWidth 16))[j]? = some r → r ≠ 15 ∧ (regList (1#1 ++ list))[j]? = some r := by
    intro j r hr
    have hbit := mem_regList.1 (List.mem_of_getElem? hr)
    rw [getLsbD_setWidth_list] at hbit
    refine ⟨fun h => ?_, ?_⟩
    · have h15 : list.getLsbD 15 = true := by rw [h] at hbit; exact hbit
      rw [BitVec.getLsbD_of_ge _ _ (Nat.le_refl 15)] at h15
      cases h15
    · obtain ⟨hlt, -⟩ := List.getElem?_eq_some_iff.1 hr
      rw [regList_withPc, List.getElem?_append_left hlt, hr]
  refine ⟨fun h => hldm2.trans (if_pos (setWidth_list_eq_zero.2 h)), fun hne => ⟨fun hmode => ?_, fun husr hsys hlen hpc hread => ?_⟩,
    fun hnone => ?_, fun psr hpsr => ⟨fun hw hbit => ?_, fun hwb hlen hread => ?_⟩⟩
  · rw [hldm2, if_neg (mt setWidth_list_eq_zero.1 hne), loadUser, if_pos (userOrSystem_iff.2 hmode)]
  · have hload : exec (.ldm2 c am rn list) s =
        .next { s with gpr := loaded s .usr (list.setWidth 16) ws false rn 0, pc := s.pc + 4 } := by
      rw [hldm2, if_neg (mt setWidth_list_eq_zero.1 hne), loadUser, if_neg (mt userOrSystem_iff.1 (not_or.2 ⟨husr, hsys⟩)),
        loadBlockOf_ok _ hlen hread, setRegsOf_eq _ _ _ _ rn 0]
      exact advance_of_lt hpc
    exact ⟨_, hload, fun j r v hr hv => loaded_mem (w := false) (fun h => nomatch h) hr hv (hmem hr).1, fun k hk =>
      loaded_other (w := false) (fun r hr hbit => hk r hr (getLsbD_setWidth_list list r ▸ hbit)) (fun h => nomatch h)⟩
  · rw [hldm3, loadReturn, hnone]
  · rw [hldm3, loadReturn, hpsr, hw, hbase, hbit]; rfl
  · have hfree : (w && (1#1 ++ list).getLsbD rn.toNat) = false := by
      cases w
      · rfl
      · exact hbase.trans (hwb rfl)
    have hload : exec (.ldm3 c am w rn list) s = exceptionReturn
        { s with gpr := loaded s s.mode (1#1 ++ list) ws w rn (blockEnd am (s.reg rn) ws.length) } psr (ws.getLastD 0) := by
      rw [hldm3, loadReturn, hpsr]
      simp only [hfree, if_neg Bool.false_ne_true, loadBlockOf_ok _ hlen hread, ← hlen, writeBack_setRegsOf _ _ _ _ _ _ hrn]
    refine ⟨fun hillegal => hload.trans (exceptionReturn_illegal _ hillegal), fun hlegal =>
      ⟨_, hload.trans (exceptionReturn_of _ hlegal), fun j r v hr hv => ?_, ?_, fun k hk => ?_⟩⟩
    · exact loaded_mem (fun hw => ⟨rfl, hrn, hbase.trans (hwb hw)⟩) (hmem hr).2 hv (hmem hr).1
    · rintro rfl
      exact loaded_base ..
    · exact loaded_other (fun r hr hbit => hk r hr (Or.inl (getLsbD_withPc list hr ▸ hbit)))
        (fun hw => hk rn hrn (Or.inr ⟨hw, rfl⟩))

/-! ### STM -/

/-- What is written back does not depend on what was stored. -/
theorem withStoredWords_based (s : State) (a : Word) (ws : List Word) (w : Bool) (rn : Reg) (v : Word) :
    (s.withStoredWords a ws).based w rn v = s.based w rn v := by
  simp only [State.based, withStoredWords_gpr, mode_congr (withStoredWords_cpsr s a ws)]

/-- A store of words and the writeback, done. -/
theorem storeBlockOf_done {am : BlockMode} {w : Bool} {rn : Reg} {ws : List Word} {n : Nat} {s : State} (hrn : rn ≠ 15)
    (hpc : s.pc.toNat + 4 < 2 ^ 32) (hlen : ws.length = n) (hwrite : s.writableBlock (blockStart am (s.reg rn) n) n) :
    storeBlockOf am w rn ws s = .next { s.withStoredWords (blockStart am (s.reg rn) n) ws with
      gpr := s.based w rn (blockEnd am (s.reg rn) n)
      pc := s.pc + 4 } := by
  subst hlen
  simp only [storeBlockOf, storeBlock_ok hwrite, afterStore, writeBack_eq _ fun _ => hrn, withStoredWords_based]
  rw [advance_of_lt (by rw [withStoredWords_pc]; exact hpc), withStoredWords_pc]

/-- A free value drawn before words are stored, or after. -/
theorem withStoredWords_drawn (ws : List Word) : ∀ (s : State) (a : Word),
    s.drawn.withStoredWords a ws = { s.withStoredWords a ws with freeCtr := s.freeCtr + 1 } := by
  induction ws with
  | nil => intro s a; rfl
  | cons w ws ih => intro s a; exact ih (s.withStored 4 a w) (a + 4)

/-- Settles O54. -/
theorem storeMultipleResults : Obligations.StoreMultipleResults := by
  unfold Obligations.StoreMultipleResults
  rintro c am w rn list s ⟨hcond, hpc⟩ hrn n a stored
  have hstm1 : exec (.stm1 c am w rn list) s = if list = 0 then .fault .emptyList else storeMultiple am w rn list s :=
    blockChecks_pass _ hcond hrn
  have hstm2 : exec (.stm2 c am rn list) s = if list = 0 then .fault .emptyList else storeUser am rn list s :=
    blockChecks_pass _ hcond hrn
  have hmem : (regList list).contains rn = list.getLsbD rn.toNat := by
    rw [Bool.eq_iff_iff, List.contains_iff_mem, mem_regList]
  refine ⟨fun h => ⟨hstm1.trans (if_pos h), hstm2.trans (if_pos h)⟩, fun hne hwrite => ⟨fun hknown => ?_, fun hw hbit hhead => ?_,
    fun husr hsys => ?_⟩, fun hne hmode => ?_⟩
  · have hdrawn : ¬(w && (regList list).contains rn && (regList list).head? != some rn) = true := by
      rw [hmem, Bool.and_eq_true, Bool.and_eq_true, bne_iff_ne]
      rintro ⟨⟨hw, hbit⟩, hhead⟩
      obtain h | h | h := hknown
      · exact Bool.false_ne_true (h.symm.trans hw)
      · exact Bool.false_ne_true (h.symm.trans hbit)
      · exact hhead h
    have hvalue : (regList list).map (stmValue w rn (regList list).head? s) = (regList list).map (stored s.mode) := by
      refine List.map_congr_left fun r hr => if_neg fun h => hdrawn ?_
      rw [Bool.and_eq_true, Bool.and_eq_true, beq_iff_eq] at h
      obtain ⟨⟨hw, rfl⟩, hhead⟩ := h
      rw [hmem, mem_regList.1 hr, hw, hhead]; rfl
    rw [hstm1, if_neg hne, storeMultiple, if_neg hdrawn, hvalue]
    exact storeBlockOf_done hrn hpc (List.length_map _) hwrite
  · have hdrawn : (w && (regList list).contains rn && (regList list).head? != some rn) = true := by
      rw [hmem, hw, hbit, bne_iff_ne.2 hhead]; rfl
    have hvalue : (regList list).map (stmValue w rn (regList list).head? s) =
        (regList list).map (fun r => if r = rn then s.freeValue else stored s.mode r) := by
      refine List.map_congr_left fun r _ => ?_
      rw [stmValue, hw, bne_iff_ne.2 hhead]
      simp only [Bool.true_and, Bool.and_true, beq_iff_eq]
      rfl
    refine ⟨s.freeValue, ?_⟩
    rw [hstm1, if_neg hne, storeMultiple, if_pos hdrawn, hvalue,
      storeBlockOf_done (s := s.drawn) hrn hpc (List.length_map _) hwrite, withStoredWords_drawn]
    rfl
  · rw [hstm2, if_neg hne, storeUser, if_neg (mt userOrSystem_iff.1 (not_or.2 ⟨husr, hsys⟩)),
      storeBlockOf_done hrn hpc (List.length_map _) hwrite]
    simp only [withStoredWords_gpr]
    rfl
  · rw [hstm2, if_neg hne, storeUser, if_pos (userOrSystem_iff.2 hmode)]

/-! ### RFE and SRS -/

/-- Settles O55. -/
theorem returnStateResults : Obligations.ReturnStateResults := by
  unfold Obligations.ReturnStateResults
  intro am w rn mode m lr psr s end8
  have hrfe : rn ≠ 15 → exec (.rfe am w rn) s = returnFromException am w rn s := fun hrn => unlessPc_of _ (anyPc_one hrn)
  have hsrs : exec (.srs am w mode) s = saveReturnState am w mode s := rfl
  refine ⟨fun hrn huser => ?_, fun hrn hpriv hread => ?_, fun hnone => ?_, fun hpsr hmode => ?_, fun hpsr hmode hpc hwrite => ?_⟩
  · rw [hrfe hrn, returnFromException, huser]; rfl
  · have hwords : s.loadBlock (blockStart am (s.reg rn) 2) 2 = .ok [lr, psr] := loadBlock_ok hread
    have hload : exec (.rfe am w rn) s = if psr &&& 0x06F0FC00 != 0 then .fault .reservedPsrBit
        else exceptionReturn { s with gpr := s.based w rn (end8 (s.reg rn)) } psr lr := by
      rw [hrfe hrn, returnFromException, hpriv, hwords, writeBack_eq _ fun _ => hrn]
      rfl
    refine ⟨fun h => hload.trans (if_pos (bne_iff_ne.2 h)), fun h hillegal => ?_, fun h hlegal => ?_⟩
    · rw [hload, if_neg (mt bne_iff_ne.1 (not_not_intro h)), exceptionReturn_illegal _ hillegal]
    · rw [hload, if_neg (mt bne_iff_ne.1 (not_not_intro h)), exceptionReturn_of _ hlegal]; rfl
  · rw [hsrs, saveReturnState, hnone]
  · simp only [hsrs, saveReturnState, hpsr, hmode]
  · simp only [hsrs, saveReturnState, hpsr, hmode, storeBlock_ok (ws := [s.reg 14, psr]) hwrite, afterStore]
    cases w
    · exact advance_of_lt hpc
    · exact advance_of_lt hpc

end Sys2Proof.Proofs

/-! The coprocessor instructions (49_exception_coprocessor.md): what is offered to a coprocessor, and what an accepted instruction
does; and the addresses of the loads and stores in integers. -/
namespace Sys2Proof.Proofs
open Sys2Proof Sys2Proof.Machine Sys2Proof.Laws

/-! ### The offer -/

/-- A coprocessor instruction is its condition and an offer of its word (49_exception_coprocessor.md R510). -/
theorem exec_offers {i : Instr} {cp : CpField} {s : State} (hcp : cpOf i = some cp)
    (hpass : ∀ c, condOf i = some c → conditionPassed c s = true) : ∃ k, exec i s = offer cp (encode i) s k := by
  cases i
  all_goals simp only [cpOf, reduceCtorEq, Option.some.injEq] at hcp
  all_goals subst hcp
  case cdp | ldc | stc | mcr | mrc | mcrr | mrrc => exact ⟨_, whenCond_pass _ (hpass _ rfl)⟩
  case cdp2 | ldc2 | stc2 | mcr2 | mrc2 | mcrr2 | mrrc2 => exact ⟨_, rfl⟩

/-- Settles O57. -/
theorem rejectedCoprocessorInstructions : Obligations.RejectedCoprocessorInstructions := by
  unfold Obligations.RejectedCoprocessorInstructions
  intro i cp s hcp hpass hreject
  obtain ⟨k, hk⟩ := exec_offers hcp hpass
  have hnone : s.cpReply cp (encode i) = none := by
    rw [cpReply_none]
    intro p hp
    rw [Bool.eq_false_iff, ne_eq, takes_iff]
    rintro ⟨a, ha, hcovers⟩
    exact hreject p hp a ha hcovers
  rw [hk, offer_reject _ hnone]; rfl

/-! ### Transfers -/

/-- CDP and its unconditional form, the condition of the first passing. -/
theorem exec_cdp {c : Cond} {o4 : BitVec 4} {p3 : BitVec 3} {crn crd crm cp : CpField} {s : State}
    (hcond : conditionPassed c s = true) :
    ∀ i ∈ [Instr.cdp c o4 crn crd cp p3 crm, .cdp2 o4 crn crd cp p3 crm], exec i s = cpDataOp cp (encode i) s :=
  forall_mem_pair.2 ⟨whenCond_pass _ hcond, rfl⟩

/-- MCR and its unconditional form, the condition of the first passing. -/
theorem exec_mcr {c : Cond} {o3 p3 : BitVec 3} {crn crm cp : CpField} {rd : Reg} {s : State}
    (hcond : conditionPassed c s = true) :
    ∀ i ∈ [Instr.mcr c o3 crn rd cp p3 crm, .mcr2 o3 crn rd cp p3 crm], exec i s = cpSend cp (encode i) rd s :=
  forall_mem_pair.2 ⟨whenCond_pass _ hcond, rfl⟩

/-- MCRR and its unconditional form, the condition of the first passing. -/
theorem exec_mcrr {c : Cond} {o4 : BitVec 4} {crm cp : CpField} {rn rd : Reg} {s : State}
    (hcond : conditionPassed c s = true) :
    ∀ i ∈ [Instr.mcrr c rn rd cp o4 crm, .mcrr2 rn rd cp o4 crm], exec i s = cpSend2 cp (encode i) rn rd s :=
  forall_mem_pair.2 ⟨whenCond_pass _ hcond, rfl⟩

/-- MRC and its unconditional form, the condition of the first passing. -/
theorem exec_mrc {c : Cond} {o3 p3 : BitVec 3} {crn crm cp : CpField} {rd : Reg} {s : State}
    (hcond : conditionPassed c s = true) :
    ∀ i ∈ [Instr.mrc c o3 crn rd cp p3 crm, .mrc2 o3 crn rd cp p3 crm], exec i s = cpReceive cp (encode i) rd s :=
  forall_mem_pair.2 ⟨whenCond_pass _ hcond, rfl⟩

/-- MRRC and its unconditional form, the condition of the first passing. -/
theorem exec_mrrc {c : Cond} {o4 : BitVec 4} {crm cp : CpField} {rn rd : Reg} {s : State}
    (hcond : conditionPassed c s = true) :
    ∀ i ∈ [Instr.mrrc c rn rd cp o4 crm, .mrrc2 rn rd cp o4 crm], exec i s = cpReceive2 cp (encode i) rn rd s :=
  forall_mem_pair.2 ⟨whenCond_pass _ hcond, rfl⟩

/-- LDC and its unconditional form, the condition of the first passing. -/
theorem exec_ldc {c : Cond} {p u n w : Bool} {rn : Reg} {crd cp : CpField} {imm8 : BitVec 8} {s : State}
    (hcond : conditionPassed c s = true) :
    ∀ i ∈ [Instr.ldc c p u n w rn crd cp imm8, .ldc2 p u n w rn crd cp imm8], exec i s = cpLoad cp (encode i) p u w rn imm8 s :=
  forall_mem_pair.2 ⟨whenCond_pass _ hcond, rfl⟩

/-- STC and its unconditional form, the condition of the first passing. -/
theorem exec_stc {c : Cond} {p u n w : Bool} {rn : Reg} {crd cp : CpField} {imm8 : BitVec 8} {s : State}
    (hcond : conditionPassed c s = true) :
    ∀ i ∈ [Instr.stc c p u n w rn crd cp imm8, .stc2 p u n w rn crd cp imm8], exec i s = cpStore cp (encode i) p u w rn imm8 s :=
  forall_mem_pair.2 ⟨whenCond_pass _ hcond, rfl⟩

/-- The flags written are the top bits of the word (R517). -/
theorem withNzcv_top (p v : Word) : withNzcv p (v.getLsbD 31) (v.getLsbD 30) (v.getLsbD 29) (v.getLsbD 28) =
    (p &&& 0x0FFFFFFF) ||| (v &&& 0xF0000000) := by
  apply BitVec.eq_of_getLsbD_eq
  intro i hi
  rw [getLsbD_withNzcv _ _ _ _ _ _ hi, BitVec.getLsbD_or, BitVec.getLsbD_and, BitVec.getLsbD_and]
  interval_cases i <;> simp

/-- Settles O58. -/
theorem coprocessorTransfers : Obligations.CoprocessorTransfers := by
  unfold Obligations.CoprocessorTransfers
  rintro c o4 o3 p3 crn crd crm cp rn rd r s ⟨hcond, hpc⟩ accepted told done
  have hdone : ∀ i ws, advance (told i ws) = done i ws := fun i ws => advance_of_lt hpc
  refine ⟨fun i hi hacc => ?_, fun i hi hacc => ?_, fun i hi hacc => ?_, fun i hi hacc => ?_, fun i hi hacc => ?_⟩
  · rw [exec_cdp hcond i hi, cpDataOp, offer_accept _ hacc]
    exact hdone i []
  · rw [exec_mcr hcond i hi, cpSend, offer_accept _ hacc]
    refine ⟨fun hrd => ?_, fun hrd => unlessPc_fault_of_mem _ (List.mem_singleton.2 hrd.symm)⟩
    rw [unlessPc_of _ (anyPc_one hrd)]
    exact hdone i _
  · rw [exec_mcrr hcond i hi, cpSend2, offer_accept _ hacc]
    refine ⟨fun hrn hrd => ?_, fun h => unlessPc_fault_of_mem _ (List.mem_pair.2 (h.imp Eq.symm Eq.symm))⟩
    rw [unlessPc_of _ (anyPc_two hrn hrd)]
    exact hdone i _
  · rw [exec_mrc hcond i hi, cpReceive, offer_accept _ hacc]
    refine ⟨fun hrd => ?_, fun hrd => ?_⟩
    · exact (if_neg hrd).trans (advance_setReg (s := told i []) _ hpc hrd)
    · refine (if_pos hrd).trans ?_
      simp only [withNzcv_top]
      exact advance_of_pc hpc rfl
  · rw [exec_mrrc hcond i hi, cpReceive2, offer_accept _ hacc]
    refine ⟨fun hrn hrd hne => ?_, fun h => unlessPc_fault_of_mem _ (List.mem_pair.2 (h.imp Eq.symm Eq.symm)), fun hrn heq => ?_⟩
    · rw [unlessPc_of _ (anyPc_two hrn hrd), unlessSame_of _ (Ne.symm hne), setReg_eq _ _ _ hrd, setReg_eq _ _ _ hrn]
      exact advance_of_pc hpc rfl
    · subst heq
      rw [unlessPc_of _ (anyPc_two hrn hrn), unlessSame_fault]

/-! ### LDC and STC -/

/-- The offset of LDC and STC (R520). -/
theorem cpOffset_eq (imm8 : BitVec 8) : cpOffset imm8 = BitVec.ofNat 32 (4 * imm8.toNat) := by
  revert imm8; decide

/-- Settles O59. -/
theorem coprocessorMemory : Obligations.CoprocessorMemory := by
  unfold Obligations.CoprocessorMemory
  rintro c p u n w rn crd cp imm8 r ws s ⟨hcond, hpc⟩ off moved a
  have hmoved : indexed (s.reg rn) (cpOffset imm8) u = moved := by rw [cpOffset_eq]; rfl
  have haddress : cpAddress p u (s.reg rn) imm8 = a := by rw [cpAddress, hmoved]
  have hfault : ∀ o, w = true → rn = 15 → unlessPc (if w then [rn] else []) o = .fault .pcOperand := fun o hw hrn => by
    rw [hw, hrn]; rfl
  have hpass : ∀ o, (w = true → rn ≠ 15) → unlessPc (if w then [rn] else []) o = o := fun o h => by
    cases w
    · rfl
    · exact unlessPc_of _ (anyPc_one (h rfl))
  refine ⟨fun i hi hacc => ?_, fun i hi hacc => ?_⟩
  · rw [exec_ldc hcond i hi, cpLoad, offer_accept _ hacc]
    refine ⟨hfault _, fun hbase hlen hread => (hpass _ hbase).trans ?_⟩
    rw [haddress, ← hlen, loadBlock_ok hread]
    simp only [afterLoad, cpWriteBack, hmoved, writeBack_eq _ hbase]
    exact advance_of_pc hpc rfl
  · rw [exec_stc hcond i hi, cpStore, offer_accept _ hacc]
    refine ⟨hfault _, fun hbase hwrite => (hpass _ hbase).trans ?_⟩
    rw [haddress, storeBlock_ok (ws := r.first :: r.more) hwrite]
    simp only [afterStore, cpWriteBack, hmoved, writeBack_eq _ hbase, withStoredWords_based]
    exact advance_of_pc (s := s) hpc (withStoredWords_pc s a _)

/-! ### Addresses in integers -/

/-- A sum of words, in integers modulo 2^32. -/
theorem add_toNat_int (a b : Word) : ((a + b).toNat : Int) = ((a.toNat : Int) + b.toNat) % 2 ^ 32 := by
  rw [BitVec.toNat_add, Int.natCast_emod, Int.natCast_add]; rfl

/-- A difference of words, in integers modulo 2^32. -/
theorem sub_toNat_int (a b : Word) : ((a - b).toNat : Int) = ((a.toNat : Int) - b.toNat) % 2 ^ 32 := by
  rw [BitVec.toNat_sub]
  have := b.isLt
  omega

/-- Base plus or minus offset, in integers (47_load_store.md R424). -/
theorem indexed_toNat (base off : Word) (u : Bool) : ((indexed base off u).toNat : Int) =
    (if u then (base.toNat : Int) + off.toNat else (base.toNat : Int) - off.toNat) % 2 ^ 32 := by
  cases u
  · exact sub_toNat_int base off
  · exact add_toNat_int base off

/-- The address accessed, in integers (R421, R424). -/
theorem accessAddress_toNat (im : IndexMode) (base off : Word) (u : Bool) : ((accessAddress im base off u).toNat : Int) =
    if im = .post then (base.toNat : Int)
    else (if u then (base.toNat : Int) + off.toNat else (base.toNat : Int) - off.toNat) % 2 ^ 32 := by
  cases im with
  | post => rfl
  | offset => exact indexed_toNat base off u
  | pre => exact indexed_toNat base off u

/-- The offset in an instruction (R422, R423). -/
theorem offset_imm_toNat (k : Transfer) (v : BitVec 12) (s : State) :
    ((k.offset (.imm v) s).toNat : Int) = if k.narrow then (v.toNat : Int) % 2 ^ 8 else (v.toNat : Int) := by
  cases h : k.narrow
  · simp only [Transfer.offset, h, if_neg Bool.false_ne_true]
    exact congrArg Nat.cast (BitVec.toNat_setWidth_of_le (by decide))
  · simp only [Transfer.offset, h, if_pos]
    rw [BitVec.toNat_setWidth_of_le (by decide), BitVec.toNat_setWidth, Int.natCast_emod]; rfl

/-- The offset in a register (R422, R423). -/
theorem offset_reg_toNat (k : Transfer) (imm5 : BitVec 5) (ty : ShiftType) (rm : Reg) (s : State) :
    ((k.offset (.reg imm5 ty rm) s).toNat : Int) =
      if k.narrow then ((s.reg rm).toNat : Int) else (shiftImm s.c (s.reg rm) ty imm5).value.toNat :=
  apply_ite (fun v : Word => (v.toNat : Int)) _ _ _

/-- The form of a transfer from its P and W bits; with User privilege it is post-indexed (R424, R433). -/
theorem index_of (k : Transfer) (p w : Bool) : k.index (IndexMode.of p w) = IndexMode.of (p && !k.user) w := by
  rw [Transfer.index]
  cases k.user
  · rw [Bool.not_false, Bool.and_true]; rfl
  · rw [Bool.not_true, Bool.and_false]; rfl

/-- The post-indexed form is the one with P = 0. -/
theorem indexModeOf_eq_post : ∀ p w : Bool, IndexMode.of p w = .post ↔ p = false := by decide

/-- The forms that write back. -/
theorem writesBack_indexModeOf : ∀ p w : Bool, writesBack (IndexMode.of p w) = (!p || w) := by decide

/-- The number of bytes of `k` words, as a word. -/
theorem words_toNat (k : Nat) : ((BitVec.ofNat 32 (4 * k)).toNat : Int) = (4 * k : Int) % 2 ^ 32 := by
  rw [BitVec.toNat_ofNat, Int.natCast_emod, Int.natCast_mul]; rfl

/-- The start address of `k` words, in integers (48_load_store_multiple_semaphore.md R472). -/
theorem blockStart_toNat (base : Word) (k : Nat) :
    ((blockStart .ib base k).toNat : Int) = ((base.toNat : Int) + 4) % 2 ^ 32 ∧
    ((blockStart .da base k).toNat : Int) = ((base.toNat : Int) - 4 * k + 4) % 2 ^ 32 ∧
    ((blockStart .db base k).toNat : Int) = ((base.toNat : Int) - 4 * k) % 2 ^ 32 := by
  have hdown : ((base - BitVec.ofNat 32 (4 * k)).toNat : Int) = ((base.toNat : Int) - 4 * k) % 2 ^ 32 := by
    rw [sub_toNat_int, words_toNat, Int.sub_emod_emod]
  refine ⟨add_toNat_int base 4, ?_, hdown⟩
  rw [show blockStart .da base k = base - BitVec.ofNat 32 (4 * k) + 4 from rfl, add_toNat_int, hdown, Int.emod_add_emod]
  rfl

/-- The written-back value of `k` words, in integers (R472). -/
theorem blockEnd_toNat (am : BlockMode) (base : Word) (k : Nat) : ((blockEnd am base k).toNat : Int) =
    (if am.u then (base.toNat : Int) + 4 * k else (base.toNat : Int) - 4 * k) % 2 ^ 32 := by
  rw [blockEnd]
  cases am.u
  · exact (sub_toNat_int _ _).trans (by rw [words_toNat, Int.sub_emod_emod]; rfl)
  · exact (add_toNat_int _ _).trans (by rw [words_toNat, Int.add_emod_emod]; rfl)

/-- The U bit of the block mode of P and U. -/
theorem blockModeOf_u : ∀ p u : Bool, (BlockMode.of p u).u = u := by decide

/-- Settles O60. -/
theorem addressArithmetic : Obligations.AddressArithmetic := by
  unfold Obligations.AddressArithmetic
  refine ⟨fun k o p u w rn s => ?_, accessAddress_toNat, fun base k => ?_, fun list => ⟨regList_rising list, fun r => mem_regList⟩⟩
  · intro im base off moved indexed
    have hoff : ((k.offset o s).toNat : Int) = off := by
      cases o with
      | imm v => exact offset_imm_toNat k v s
      | reg imm5 ty rm => exact offset_reg_toNat k imm5 ty rm s
    have hmoved : (if u then (base : Int) + (k.offset o s).toNat else (base : Int) - (k.offset o s).toNat) % 2 ^ 32 = moved := by
      rw [hoff]
    have hindex : k.index im = IndexMode.of indexed w := index_of k p w
    refine ⟨?_, (indexed_toNat _ _ u).trans hmoved, by rw [hindex, writesBack_indexModeOf]⟩
    refine (accessAddress_toNat _ _ _ u).trans ?_
    rw [hmoved, hindex]
    cases indexed
    · exact if_pos rfl
    · exact if_neg (mt (indexModeOf_eq_post true w).1 (fun h => nomatch h))
  · obtain ⟨hib, hda, hdb⟩ := blockStart_toNat base k
    refine ⟨rfl, hib, hda, hdb, fun p u => ?_⟩
    rw [blockEnd_toNat, blockModeOf_u]

end Sys2Proof.Proofs

/-! Accesses that are not done (60_exceptions.md section 4; 20_memory.md sections 3 and 5): what becomes of a load or store where
an access crosses the top of the address space or is aborted. Each way an instruction goes on after its accesses has one lemma
here; an instruction is one of these ways past its checks. -/
namespace Sys2Proof.Proofs
open Sys2Proof Sys2Proof.Machine Sys2Proof.Laws

/-! ### The three kinds of access -/

/-- What an instruction with one access to `n` bytes does where the access is not done. -/
def OneAccess (s : State) (v : Privilege) (kind : AccessKind) (n : Nat) (a : Word) (o : Out) : Prop :=
  (2 ^ 32 < a.toNat + n → o = .fault .addressWrap) ∧
    (a.toNat + n ≤ 2 ^ 32 → ¬s.reachable v kind n a → o = .next (takeException .dataAbort s))

/-- What an instruction with accesses to `n` words from `a` up does where one of them is not done. -/
def BlockAccess (s : State) (kind : AccessKind) (a : Word) (n : Nat) (o : Out) (after : Nat → Out → Prop) : Prop :=
  (2 ^ 32 < a.toNat + 4 * n → o = .fault .addressWrap) ∧ ∀ d, s.abortsAt kind a n d → after d o

/-- What a doubleword transfer at `a` does where it is not done. -/
def PairAccess (s : State) (kind : AccessKind) (a : Word) (o : Out) (after : Nat → Out → Prop) : Prop :=
  (a.toNat + 8 ≤ 2 ^ 32 → a.toNat % 8 ≠ 0 → o = .next (takeException .dataAbort s)) ∧
    (2 ^ 32 < a.toNat + 8 → o = .fault .addressWrap) ∧ (a.toNat % 8 = 0 → ∀ d, s.abortsAt kind a 2 d → after d o)

/-! ### One access -/

/-- A load that is not done. -/
theorem oneAccess_load (s : State) (v : Privilege) (n : Nat) (a : Word) (k : Word → Out) :
    OneAccess s v .read n a (afterLoad s (s.load v n a) k) :=
  ⟨fun h => by rw [load_wraps h]; rfl, fun htop h => by rw [load_abort.2 ⟨htop, h, rfl⟩]; rfl⟩

/-- A store that is not done. -/
theorem oneAccess_store (s : State) (v : Privilege) (n : Nat) (a w : Word) (k : State → Out) :
    OneAccess s v .write n a (afterStore s a (s.store v n a w) k) :=
  ⟨fun h => by rw [store_wraps h]; rfl, fun htop h => by rw [store_abort.2 ⟨htop, h, rfl⟩]; rfl⟩

/-- A store after which nothing is unknown. -/
theorem oneAccess_afterLoad_store (s : State) (v : Privilege) (n : Nat) (a w : Word) (k : State → Out) :
    OneAccess s v .write n a (afterLoad s (s.store v n a w) k) :=
  ⟨fun h => by rw [store_wraps h]; rfl, fun htop h => by rw [store_abort.2 ⟨htop, h, rfl⟩]; rfl⟩

/-- A single load or store that is not done (47_load_store.md R424). -/
theorem oneAccess_transfer {k : Transfer} {o : Offset} {c : Cond} {im : IndexMode} {u : Bool} {rn rd : Reg} {s : State}
    (hcond : conditionPassed c s = true) (hallow : k.allows o im rn rd = true) :
    OneAccess s (k.priv s) (if k.stores then .write else .read) k.bytes (k.address o im u rn s) (exec (k.form o c im u rn rd) s) := by
  cases hk : k.stores
  · rw [exec_load hk, lsOp_of_allows _ hcond hallow]
    exact oneAccess_load s _ _ _ _
  · rw [exec_store hk, lsOp_of_allows _ hcond hallow]
    exact oneAccess_store s _ _ _ _ _

/-! ### Several accesses -/

/-- A run of reads that crosses the top of the address space (20_memory.md R83). -/
theorem loadBlock_wraps {s : State} {a : Word} {n : Nat} (h : 2 ^ 32 < a.toNat + 4 * n) :
    s.loadBlock a n = .fault .addressWrap := by
  rw [State.loadBlock, crossesTop_true.2 h]; rfl

/-- A run of writes that crosses the top of the address space (R83). -/
theorem storeBlock_wraps {s : State} {a : Word} {ws : List Word} (h : 2 ^ 32 < a.toNat + 4 * ws.length) :
    s.storeBlock a ws = .fault .addressWrap := by
  rw [State.storeBlock, crossesTop_true.2 h]; rfl

/-- A load of several registers that is not done. -/
theorem blockAccess_loadBlockOf (am : BlockMode) (rn : Reg) (list : BitVec 16) (m : Mode) (s : State) (k : List Word → Out) :
    let n := (regList list).length
    BlockAccess s .read (blockStart am (s.reg rn) n) n (loadBlockOf am rn list m s k)
      (fun d => LoadAborted s m rn ((regList list).take d)) := by
  intro n
  refine ⟨fun h => ?_, fun d h => ?_⟩
  · simp only [loadBlockOf]
    rw [loadBlock_wraps h]
  · have haborted := abortedLoad_aborted s m rn ((regList list).take d)
    simp only [loadBlockOf]
    rw [loadBlock_abort.2 h]
    exact haborted

/-- A run of reads after which nothing is unknown. -/
theorem blockAccess_afterLoad (s : State) (a : Word) (n : Nat) (k : List Word → Out) :
    BlockAccess s .read a n (afterLoad s (s.loadBlock a n) k) (fun _ o => o = .next (takeException .dataAbort s)) :=
  ⟨fun h => by rw [loadBlock_wraps h]; rfl, fun d h => by rw [loadBlock_abort.2 h]; rfl⟩

/-- Nothing but memory, the written addresses and the count of free values differs where words are unknown. -/
theorem freeWords_eq (s : State) (a : Word) (d : Nat) : s.freeWords a d = { s with
    mem := (s.freeWords a d).mem, written := (s.freeWords a d).written, freeCtr := (s.freeWords a d).freeCtr } := by
  obtain ⟨hgpr, hpc, hcpsr, hspsr, hmonitor, hcoprocs, hlines, hplatform⟩ := freeWords_fields d s a
  rw [← hgpr, ← hpc, ← hcpsr, ← hspsr, ← hmonitor, ← hcoprocs, ← hlines, ← hplatform]

/-- A word stored in four bytes is read back whole. -/
theorem assemble_disassemble_word (e : Bool) (v : Word) : assemble e (disassemble e 4 v) = v := by
  rw [assemble_disassemble e 4 (Nat.le_refl 4)]
  exact BitVec.and_allOnes

/-- The words stored before an abort are unknown; `t` is `s` after values may have been drawn. -/
theorem freeWords_storeAborted {s t : State} {a : Word} {d : Nat} (htop : a.toNat + 4 * d ≤ 2 ^ 32)
    (ht : t = { s with freeCtr := t.freeCtr }) (hfree : s.freeCtr ≤ t.freeCtr) :
    StoreAborted s a d (raise .dataAbort (t.freeWords a d)) := by
  obtain ⟨-, houtside, hwritten, hwords⟩ := freeWords_mem d t a htop
  have hsame := freeWords_eq t a d
  generalize t.freeCtr = c at ht hfree hwords
  subst ht
  refine ⟨_, _, _, congrArg (raise .dataAbort) hsame, houtside, hwritten, fun j hj => ?_⟩
  obtain ⟨n, hlow, hhigh, hword⟩ := hwords j hj
  refine ⟨n, Nat.le_trans hfree hlow, hhigh, ?_⟩
  rw [hword]
  exact congrArg some (assemble_disassemble_word _ _)

/-- A run of writes that is not done. -/
theorem blockAccess_afterStore {s t : State} (a : Word) (ws : List Word) (k : State → Out)
    (ht : t = { s with freeCtr := t.freeCtr }) (hfree : s.freeCtr ≤ t.freeCtr) :
    BlockAccess s .write a ws.length (afterStore t a (t.storeBlock a ws) k) (StoreAborted s a) := by
  refine ⟨fun h => by rw [storeBlock_wraps h]; rfl, fun d h => ?_⟩
  have habort : t.abortsAt .write a ws.length d := by rw [ht]; exact h
  rw [storeBlock_abort.2 habort]
  obtain ⟨htop, hd, -⟩ := h
  exact freeWords_storeAborted (by omega) ht hfree

/-- A store of several registers that is not done. -/
theorem blockAccess_storeBlockOf {am : BlockMode} {w : Bool} {rn : Reg} {ws : List Word} {n : Nat} {s t : State} (hlen : ws.length = n)
    (ht : t = { s with freeCtr := t.freeCtr }) (hfree : s.freeCtr ≤ t.freeCtr) :
    BlockAccess s .write (blockStart am (s.reg rn) n) n (storeBlockOf am w rn ws t)
      (StoreAborted s (blockStart am (s.reg rn) n)) := by
  subst hlen
  have hreg : t.reg rn = s.reg rn := by rw [ht]; rfl
  rw [← hreg]
  exact blockAccess_afterStore _ ws _ ht hfree

/-! ### Doublewords -/

/-- A misaligned pair, or one that crosses the top of the address space. -/
theorem pairAccess_whenAligned {s : State} {kind : AccessKind} {a : Word} {o : Out} {after : Nat → Out → Prop}
    (h : ∀ d, s.abortsAt kind a 2 d → after d o) : PairAccess s kind a (whenAligned 8 a s o) after :=
  ⟨whenAligned_abort o, whenAligned_wraps o, fun halign d hd => by
    rw [whenAligned_of _ hd.1 halign]
    exact h d hd⟩

/-- A load of two words that is not done. -/
theorem pairAccess_load (im : IndexMode) (u : Bool) (rn rd : Reg) (off : Word) (s : State) :
    PairAccess s .read (accessAddress im (s.reg rn) off u) (loadPair im u rn rd off s)
      (fun d => LoadAborted s s.mode rn ([rd, rd + 1].take d)) := by
  refine pairAccess_whenAligned fun d h => ?_
  have haborted := abortedLoad_aborted s s.mode rn ([rd, rd + 1].take d)
  rw [loadBlock_abort.2 h]
  exact haborted

/-- A store of two words that is not done. -/
theorem pairAccess_store (im : IndexMode) (u : Bool) (rn rd : Reg) (off : Word) (s : State) :
    PairAccess s .write (accessAddress im (s.reg rn) off u) (storePair im u rn rd off s)
      (StoreAborted s (accessAddress im (s.reg rn) off u)) :=
  pairAccess_whenAligned (blockAccess_afterStore (s := s) _ [s.reg rd, s.reg (pairReg rd)] _ rfl (Nat.le_refl _)).2

/-! ### The instructions -/

/-- A base register that may be written back. -/
theorem not_base_in_list {list : BitVec 16} {w : Bool} {rn : Reg} (h : w = true → list.getLsbD rn.toNat = false) :
    ¬(w && list.getLsbD rn.toNat) = true := by
  rw [Bool.and_eq_true]
  exact fun ⟨hw, hbit⟩ => Bool.false_ne_true ((h hw).symm.trans hbit)

/-- STREX checks its address before the monitor (47_load_store.md R447; notes/assumptions/29.md). -/
theorem strex_not_done {c : Cond} {rn rd rm : Reg} {s : State} (hcond : conditionPassed c s = true) (hrn : rn ≠ 15) (hrd : rd ≠ 15)
    (hrm : rm ≠ 15) (hdn : rd ≠ rn) (hdm : rd ≠ rm) :
    let a := s.reg rn
    (2 ^ 32 < a.toNat + 4 → exec (.strex c rn rd rm) s = .fault .addressWrap) ∧
    (a.toNat + 4 ≤ 2 ^ 32 → a.toNat % 4 ≠ 0 → exec (.strex c rn rd rm) s = .next (takeException .dataAbort s)) ∧
    (a.toNat + 4 ≤ 2 ^ 32 → s.monitor = some (monitorTag s.platform a) → ¬s.reachable s.privilege .write 4 a →
      exec (.strex c rn rd rm) s = .next (takeException .dataAbort s)) := by
  intro a
  rw [exec_strex hcond hrn hrd hrm hdn hdm]
  refine ⟨whenAligned_wraps _, whenAligned_abort _, fun htop hmon hreach => ?_⟩
  by_cases halign : a.toNat % 4 = 0
  · rw [whenAligned_of _ htop halign, if_pos hmon]
    exact (oneAccess_afterLoad_store s _ 4 a _ _).2 htop hreach
  · exact whenAligned_abort _ htop halign

/-- A swap whose read or write is not done (48_load_store_multiple_semaphore.md R490; notes/assumptions/26.md). -/
theorem swap_not_done {c : Cond} {n : Nat} {rn rd rm : Reg} {s : State} (hcond : conditionPassed c s = true) (hrn : rn ≠ 15)
    (hrd : rd ≠ 15) (hrm : rm ≠ 15) (hnm : rn ≠ rm) (hnd : rn ≠ rd) :
    OneAccess s s.privilege .read n (s.reg rn) (swap c n rn rd rm s) ∧
    ∀ v, s.readable s.privilege n (s.reg rn) v → ¬s.reachable s.privilege .write n (s.reg rn) →
      swap c n rn rd rm s = .next (takeException .dataAbort s) := by
  rw [swap_of hcond hrn hrd hrm hnm hnd]
  refine ⟨oneAccess_load s _ n _ _, fun v hread hreach => ?_⟩
  rw [load_ok.2 hread]
  exact (oneAccess_afterLoad_store s _ n _ _ _).2 hread.1.1 hreach

/-- STM (1) draws a value before its stores, or none. -/
theorem blockAccess_storeMultiple (am : BlockMode) (w : Bool) (rn : Reg) (list : BitVec 16) (s : State) :
    let n := (regList list).length
    let a := blockStart am (s.reg rn) n
    BlockAccess s .write a n (storeMultiple am w rn list s) (StoreAborted s a) := by
  rw [storeMultiple]
  split
  · exact blockAccess_storeBlockOf (List.length_map _) rfl (Nat.le_succ _)
  · exact blockAccess_storeBlockOf (List.length_map _) rfl (Nat.le_refl _)

/-- The single loads and stores, the exclusive accesses and the swaps of O48. -/
theorem singles_not_done {c : Cond} {rn rd rm : Reg} {s : State} (hcond : conditionPassed c s = true) (hrn : rn ≠ 15) (hrd : rd ≠ 15) :
    OneAccess s s.privilege .read 4 (s.reg rn) (exec (.ldrex c rn rd) s) ∧
    (rm ≠ 15 → rn ≠ rm → rn ≠ rd → ∀ p ∈ [(Instr.swp c rn rd rm, 4), (Instr.swpb c rn rd rm, 1)],
      OneAccess s s.privilege .read p.2 (s.reg rn) (exec p.1 s) ∧
      ∀ v, s.readable s.privilege p.2 (s.reg rn) v → ¬s.reachable s.privilege .write p.2 (s.reg rn) →
        exec p.1 s = .next (takeException .dataAbort s)) := by
  refine ⟨?_, fun hrm hnm hnd => forall_mem_pair.2 ⟨swap_not_done hcond hrn hrd hrm hnm hnd, swap_not_done hcond hrn hrd hrm hnm hnd⟩⟩
  rw [exec_ldrex hcond hrn hrd]
  exact oneAccess_load s _ 4 _ _

/-- LDM (1) and the STMs, past the checks of their registers. -/
theorem multiples_not_done {c : Cond} {am : BlockMode} {w : Bool} {rn : Reg} {s : State} (hcond : conditionPassed c s = true)
    (hrn : rn ≠ 15) {list : BitVec 16} (hne : list ≠ 0) :
    let n := (regList list).length
    let a := blockStart am (s.reg rn) n
    ((w = true → list.getLsbD rn.toNat = false) →
      BlockAccess s .read a n (exec (.ldm1 c am w rn list) s) (fun d => LoadAborted s s.mode rn ((regList list).take d))) ∧
    BlockAccess s .write a n (exec (.stm1 c am w rn list) s) (StoreAborted s a) ∧
    (s.mode ≠ .usr → s.mode ≠ .sys → BlockAccess s .write a n (exec (.stm2 c am rn list) s) (StoreAborted s a)) := by
  intro n a
  have hlist : ∀ out, blockChecks c rn list s out = out := fun out => (blockChecks_pass _ hcond hrn).trans (if_neg hne)
  have hldm : exec (.ldm1 c am w rn list) s = loadMultiple am w rn list s := hlist _
  have hstm1 : exec (.stm1 c am w rn list) s = storeMultiple am w rn list s := hlist _
  have hstm2 : exec (.stm2 c am rn list) s = storeUser am rn list s := hlist _
  refine ⟨fun hbase => ?_, ?_, fun husr hsys => ?_⟩
  · rw [hldm, loadMultiple, if_neg (not_base_in_list hbase)]
    exact blockAccess_loadBlockOf am rn list s.mode s _
  · rw [hstm1]
    exact blockAccess_storeMultiple am w rn list s
  · rw [hstm2, storeUser, if_neg (mt userOrSystem_iff.1 (not_or.2 ⟨husr, hsys⟩))]
    exact blockAccess_storeBlockOf (List.length_map _) rfl (Nat.le_refl _)

/-- LDM (2) and LDM (3), past the checks of their registers. -/
theorem privileged_multiples_not_done {c : Cond} {am : BlockMode} {w : Bool} {rn : Reg} {s : State}
    (hcond : conditionPassed c s = true) (hrn : rn ≠ 15) (husr : s.mode ≠ .usr) (hsys : s.mode ≠ .sys) (list : BitVec 15) :
    let low := regList (list.setWidth 16)
    let all := regList (1#1 ++ list)
    (list ≠ 0 → BlockAccess s .read (blockStart am (s.reg rn) low.length) low.length (exec (.ldm2 c am rn list) s)
      (fun d => LoadAborted s .usr rn (low.take d))) ∧
    ((w = true → list.getLsbD rn.toNat = false) →
      BlockAccess s .read (blockStart am (s.reg rn) all.length) all.length (exec (.ldm3 c am w rn list) s)
        (fun d => LoadAborted s s.mode rn (all.take d))) := by
  intro low all
  refine ⟨fun hne => ?_, fun hbase => ?_⟩
  · have hexec : exec (.ldm2 c am rn list) s = loadUser am rn (list.setWidth 16) s :=
      (blockChecks_pass _ hcond hrn).trans (if_neg (mt setWidth_list_eq_zero.1 hne))
    rw [hexec, loadUser, if_neg (mt userOrSystem_iff.1 (not_or.2 ⟨husr, hsys⟩))]
    exact blockAccess_loadBlockOf am rn _ .usr s _
  · obtain ⟨psr, hpsr⟩ : ∃ psr, s.spsr? = some psr := by
      rw [State.spsr?]
      cases hm : s.mode with
      | usr => exact absurd hm husr
      | sys => exact absurd hm hsys
      | svc | abt | und | irq | fiq => exact ⟨_, rfl⟩
    rw [exec_ldm3 hcond hrn, loadReturn, hpsr]
    simp only [if_neg (not_base_in_list (w := w) (list := 1#1 ++ list) fun hw => (getLsbD_withPc list hrn).trans (hbase hw))]
    exact blockAccess_loadBlockOf am rn _ s.mode s _

/-- LDRD and STRD, past the checks of their registers. -/
theorem pairs_not_done {c : Cond} {im : IndexMode} {u : Bool} {rn rd rm : Reg} {imm8 : BitVec 8} {s : State}
    (hcond : conditionPassed c s = true) (heven : rd.getLsbD 0 = false) (h14 : rd ≠ 14) (hbase : PairBase im rn rd) :
    let ai := accessAddress im (s.reg rn) (imm8.setWidth 32) u
    let ar := accessAddress im (s.reg rn) (s.reg rm) u
    PairAccess s .read ai (exec (.ldrdImm c im u rn rd imm8) s) (fun d => LoadAborted s s.mode rn ([rd, rd + 1].take d)) ∧
    PairAccess s .write ai (exec (.strdImm c im u rn rd imm8) s) (StoreAborted s ai) ∧
    (rm ≠ 15 → PairAccess s .write ar (exec (.strdReg c im u rn rd rm) s) (StoreAborted s ar) ∧
      (rm ≠ rd → rm ≠ rd + 1 → PairAccess s .read ar (exec (.ldrdReg c im u rn rd rm) s)
        (fun d => LoadAborted s s.mode rn ([rd, rd + 1].take d)))) := by
  intro ai ar
  obtain ⟨hli, hlr, hsi, hsr⟩ := exec_doubleword c im u rn rd rm imm8 s
  rw [whenCond_pass _ hcond] at hli hlr hsi hsr
  have hnone : ∀ r, (none : Option Reg) = some r → r ≠ 15 := fun r hr => nomatch hr
  refine ⟨?_, ?_, fun hrm => ?_⟩
  · rw [hli, pairChecks_of _ heven h14 hbase hnone fun _ r hr => nomatch hr]
    exact pairAccess_load im u rn rd _ s
  · rw [hsi, pairChecks_of _ heven h14 hbase hnone fun h => absurd h Bool.false_ne_true]
    exact pairAccess_store im u rn rd _ s
  · have hsome : ∀ r, some rm = some r → r ≠ 15 := fun r hr => Option.some.inj hr ▸ hrm
    refine ⟨?_, fun hd hd1 => ?_⟩
    · rw [hsr, pairChecks_of _ heven h14 hbase hsome fun h => absurd h Bool.false_ne_true]
      exact pairAccess_store im u rn rd _ s
    · rw [hlr, pairChecks_of _ heven h14 hbase hsome fun _ r hr => Option.some.inj hr ▸ ⟨hd, hd1⟩]
      exact pairAccess_load im u rn rd _ s

/-- LDC and STC, accepted and past the check of the base register. -/
theorem coprocessors_not_done {c : Cond} {p u n w : Bool} {rn : Reg} {crd cp : CpField} {imm8 : BitVec 8} {r : CpReply} {s : State}
    (hcond : conditionPassed c s = true) (hbase : w = true → rn ≠ 15) :
    let a := cpAddress p u (s.reg rn) imm8
    (∀ i ∈ [Instr.ldc c p u n w rn crd cp imm8, .ldc2 p u n w rn crd cp imm8], s.cpReply cp (encode i) = some r →
      BlockAccess s .read a (r.ldcMore + 1) (exec i s) (fun _ o => o = .next (takeException .dataAbort s))) ∧
    (∀ i ∈ [Instr.stc c p u n w rn crd cp imm8, .stc2 p u n w rn crd cp imm8], s.cpReply cp (encode i) = some r →
      BlockAccess s .write a (r.more.length + 1) (exec i s) (StoreAborted s a)) := by
  intro a
  have hpass : anyPc (if w then [rn] else []) = false := by
    cases w
    · rfl
    · exact anyPc_one (hbase rfl)
  refine ⟨fun i hi hacc => ?_, fun i hi hacc => ?_⟩
  · rw [exec_ldc hcond i hi, cpLoad, offer_accept _ hacc]
    simp only [unlessPc_of _ hpass]
    exact blockAccess_afterLoad s _ _ _
  · rw [exec_stc hcond i hi, cpStore, offer_accept _ hacc]
    simp only [unlessPc_of _ hpass]
    exact blockAccess_afterStore (s := s) _ (r.first :: r.more) _ rfl (Nat.le_refl _)

/-- Settles O48: past the checks of each instruction its accesses are one of the ways above. -/
theorem abortedTransfers : Obligations.AbortedTransfers := by
  unfold Obligations.AbortedTransfers
  intro c am im u w rn rd rm s hcond aborted one block
  refine ⟨fun k o => oneAccess_transfer hcond, fun hrn hrd => ?_, fun list hrn => multiples_not_done hcond hrn,
    fun list hrn husr hsys => privileged_multiples_not_done hcond hrn husr hsys list,
    fun imm8 => pairs_not_done hcond, fun hrn hpriv => ?_, fun mode m psr hpsr hmode => ?_, fun p n crd cp imm8 r hbase => ?_⟩
  · obtain ⟨hldrex, hswap⟩ := singles_not_done (rm := rm) hcond hrn hrd
    have hstrex := strex_not_done (rm := rm) hcond hrn hrd
    simp only [monitorTag_eq] at hstrex
    exact ⟨hldrex, hstrex, hswap⟩
  · have hexec : exec (.rfe am w rn) s = returnFromException am w rn s := unlessPc_of _ (anyPc_one hrn)
    have haccess : BlockAccess s .read (blockStart am (s.reg rn) 2) 2 (exec (.rfe am w rn) s) (fun _ o => o = aborted) := by
      rw [hexec, returnFromException, hpriv]
      exact blockAccess_afterLoad s _ 2 _
    exact haccess
  · have haccess : BlockAccess s .write (blockStart am (s.regOf m 13) 2) 2 (saveReturnState am w mode s)
        (StoreAborted s (blockStart am (s.regOf m 13) 2)) := by
      simp only [saveReturnState, hpsr, hmode]
      exact blockAccess_afterStore (s := s) _ [s.reg 14, psr] _ rfl (Nat.le_refl _)
    exact haccess
  · have hcp := coprocessors_not_done (p := p) (u := u) (n := n) (crd := crd) (cp := cp) (imm8 := imm8) (r := r) hcond hbase
    rw [cpAddress, cpOffset_eq] at hcp
    exact hcp

end Sys2Proof.Proofs

/-! Legal states (10_state.md sections 2 to 4): what keeps each part of the invariant. -/
namespace Sys2Proof.Proofs
open Sys2Proof Sys2Proof.Machine Sys2Proof.Laws

/-! ### Aligned addresses -/

/-- An address aligned to a power of two is one whose low bits are 0. -/
theorem and_high_eq_self {v high low : Word} (hlow : high ||| low = BitVec.allOnes 32) (hdisjoint : high &&& low = 0) :
    v &&& high = v ↔ v &&& low = 0 := by
  constructor
  · intro h
    rw [← h, BitVec.and_assoc, hdisjoint]
    exact BitVec.and_zero
  · intro h
    calc v &&& high = (v &&& high) ||| (v &&& low) := by rw [h]; exact BitVec.or_zero.symm
      _ = v &&& (high ||| low) := BitVec.and_or_distrib_left.symm
      _ = v := by rw [hlow, BitVec.and_allOnes]

/-- An address is aligned for a status register where it is a multiple of 2, in Thumb state, or of 4 (10_state.md R40). -/
theorem alignFor_eq_self {psr v : Word} : alignFor psr v = v ↔ v.toNat % (if psr.getLsbD 5 then 2 else 4) = 0 := by
  rw [alignFor]
  cases psr.getLsbD 5
  · have hmod : (v &&& 3).toNat = v.toNat % 4 := by
      rw [BitVec.toNat_and]; exact Nat.and_two_pow_sub_one_eq_mod _ 2
    rw [if_neg Bool.false_ne_true, if_neg Bool.false_ne_true, and_high_eq_self (low := 3) (by decide) (by decide),
      ← BitVec.toNat_inj, hmod]
    rfl
  · have hmod : (v &&& 1).toNat = v.toNat % 2 := by
      rw [BitVec.toNat_and]; exact Nat.and_two_pow_sub_one_eq_mod _ 1
    rw [if_pos rfl, if_pos rfl, and_high_eq_self (low := 1) (by decide) (by decide), ← BitVec.toNat_inj, hmod]
    rfl

/-- Aligning twice is aligning once. -/
theorem alignFor_alignFor (psr v : Word) : alignFor psr (alignFor psr v) = alignFor psr v := by
  rw [alignFor, alignFor, BitVec.and_assoc, BitVec.and_self]

/-- A multiple of 4 further an address stays aligned. -/
theorem alignFor_add {psr v d : Word} (h : alignFor psr v = v) (hd : d.toNat % 4 = 0) : alignFor psr (v + d) = v + d := by
  rw [alignFor_eq_self] at h ⊢
  rw [BitVec.toNat_add]
  have := v.isLt
  split at h
  · rw [if_pos (by assumption)]; omega
  · rw [if_neg (by assumption)]; omega

/-! ### The bits of a status register -/

/-- The reserved bits of a status register are 0 where they are those of one whose are (10_state.md R50). -/
theorem reservedZero_congr {a c : Word} (h : ∀ k < 32, unallocMask.getLsbD k = true → c.getLsbD k = a.getLsbD k)
    (ha : reservedZero a = true) : reservedZero c = true := by
  rw [reservedZero, beq_iff_eq] at ha ⊢
  rw [← ha]
  apply BitVec.eq_of_getLsbD_eq
  intro k hk
  rw [BitVec.getLsbD_and, BitVec.getLsbD_and]
  cases hu : unallocMask.getLsbD k
  · rw [Bool.and_false, Bool.and_false]
  · rw [h k hk hu]

/-- The mode bits are the low five. -/
theorem modeBits_congr {a c : Word} (h : ∀ k < 5, c.getLsbD k = a.getLsbD k) : modeBits c = modeBits a := by
  apply BitVec.eq_of_getLsbD_eq
  intro k hk
  simp only [modeBits, BitVec.getLsbD_setWidth, h k hk]

/-! ### Legal states after a change -/

/-- A part of the state that the invariant does not speak of may be anything. -/
theorem inv_congr {s t : State} (h : s.Inv) (hmem : t.mem = s.mem) (hwritten : t.written = s.written) (hcpsr : t.cpsr = s.cpsr)
    (hspsr : t.spsr = s.spsr) (hpc : t.pc = s.pc) : t.Inv where
  mem := hmem ▸ h.mem
  written := hwritten ▸ h.written
  inSpace := hwritten ▸ h.inSpace
  cpsr := hcpsr ▸ h.cpsr
  spsr := hspsr ▸ h.spsr
  mode := hcpsr ▸ h.mode
  pc := by rw [hcpsr, hpc]; exact h.pc

/-- The status register and the PC may become any that are legal and aligned. -/
theorem inv_goto {s : State} (h : s.Inv) {c x : Word} (hreserved : reservedZero c = true) (hmode : legalMode c = true)
    (hpc : alignFor c x = x) : ({ s with cpsr := c, pc := x } : State).Inv where
  mem := h.mem
  written := h.written
  inSpace := h.inSpace
  cpsr := hreserved
  spsr := h.spsr
  mode := hmode
  pc := hpc

/-- The next instruction is aligned where this one is. -/
theorem inv_advance {s : State} (h : s.Inv) : ({ s with pc := s.pc + 4 } : State).Inv :=
  inv_goto h h.cpsr h.mode (alignFor_add h.pc rfl)

/-- Bytes stored below the top of the address space keep memory and the written addresses canonical. -/
theorem inv_withStored {s : State} (h : s.Inv) {n : Nat} {a : Word} (w : Word) (htop : a.toNat + n ≤ 2 ^ 32) :
    (s.withStored n a w).Inv where
  mem := wf_writeBytes _ _ _ (by rw [disassemble_length]; exact htop) h.mem
  written := rising_addAddrs _ _ _ h.written
  inSpace := fun x hx => by
    obtain ⟨-, hx⟩ | hx := (mem_addAddrs _ _ _ _).1 hx
    · exact Nat.lt_of_lt_of_le hx htop
    · exact h.inSpace x hx
  cpsr := h.cpsr
  spsr := h.spsr
  mode := h.mode
  pc := h.pc

/-- An SPSR may become any word with its reserved bits 0. -/
theorem inv_setSpsrOf {s : State} (h : s.Inv) (m : Mode) {v : Word} (hv : reservedZero v = true) : (s.setSpsrOf m v).Inv := by
  have hspsr : ∀ k : Fin 5, reservedZero ((s.setSpsrOf m v).spsr.get k) = true := fun k => by
    rw [State.setSpsrOf]
    cases m.spsrIndex with
    | none => exact h.spsr k
    | some j =>
      by_cases hk : k = j
      · rw [hk]; exact (congrArg reservedZero (spsr_get_set_same _ _ _)).trans hv
      · exact (congrArg reservedZero (spsr_get_set_other _ _ _ _ hk)).trans (h.spsr k)
  exact { mem := h.mem, written := h.written, inSpace := h.inSpace, cpsr := h.cpsr, spsr := hspsr, mode := h.mode, pc := h.pc }

/-- The status register after an exception entry is legal (60_exceptions.md R548). -/
theorem entryPsr_legal (k : ExceptionKind) (ee : Bool) {p : Word} (h : reservedZero p = true) :
    reservedZero (entryPsr k ee p) = true ∧ legalMode (entryPsr k ee p) = true := by
  refine ⟨reservedZero_congr (fun j hj hu => ?_) h, ?_⟩
  · have hkept := congrArg (fun v : Word => v.getLsbD j) (entryPsr_and_kept k ee p)
    have hj : (0xFEFFFC00 : Word).getLsbD j = true := by
      revert hu; interval_cases j <;> decide
    simpa only [BitVec.getLsbD_and, hj, Bool.and_true] using hkept
  · rw [legalMode, modeBits_entryPsr, modeOfNumber_number]; rfl

/-- The vectors are aligned. -/
theorem vector_aligned (k : ExceptionKind) (p : Platform) (psr : Word) :
    alignFor psr (vectorBase p + k.offset) = vectorBase p + k.offset := by
  rw [alignFor_eq_self, vectorBase]
  cases p.highVectors <;> cases k <;> cases psr.getLsbD 5 <;> rfl

/-- Exception entry leads to a legal state. -/
theorem inv_takeException {s : State} (h : s.Inv) (k : ExceptionKind) : (takeException k s).Inv := by
  obtain ⟨hreserved, hmode⟩ := entryPsr_legal k s.platform.ee h.cpsr
  have hregs : (s.setRegOf k.mode 14 (s.pc + k.link)).Inv := inv_congr h rfl rfl rfl rfl rfl
  exact inv_goto (inv_setSpsrOf hregs k.mode h.cpsr) hreserved hmode (vector_aligned k _ _)

end Sys2Proof.Proofs

/-! What an instruction may change. `Effect p s t` says everything the frame statements and the invariant need of an instruction
that goes from `s` to `t` within the scope `p`. It is proved once for each way a state is updated and once for each way an
instruction ends; every instruction is such updates and such an end. -/
namespace Sys2Proof.Proofs
open Sys2Proof Sys2Proof.Machine Sys2Proof.Laws

/-! ### Scopes -/

/-- What an instruction may change: cells of the register file, bits of the status register, bytes of memory from an address up,
one coprocessor; and whether it may change an SPSR, the monitor, and the PC other than to the next word. -/
structure Scope where
  cells : List (Fin 30)
  bits : Word
  span : Option (Nat × Nat)
  cp : Option CpField
  spsr : Prop
  monitor : Prop
  pc : Prop

/-- Q may be cleared only where other bits than Q may change with it (10_state.md R43). -/
def Scope.clearsQ (p : Scope) : Prop := ¬(p.bits &&& 0x08000000 = 0 ∨ p.bits = 0x08000000)

/-- The status register changes within its bits; in User mode neither its mode nor its masks do; Q is not cleared. -/
structure PsrFrame (p : Scope) (a c : Word) : Prop where
  bits : ∀ k < 32, p.bits.getLsbD k = false → c.getLsbD k = a.getLsbD k
  user : modeBits a = 0b10000 → ∀ k < 32, (0x1DF : Word).getLsbD k = true → c.getLsbD k = a.getLsbD k
  q : p.clearsQ ∨ (a.getLsbD 27 = true → c.getLsbD 27 = true)

/-- Such a change that leaves a legal status register legal, and T as it is. -/
structure PsrKept (p : Scope) (a c : Word) : Prop extends PsrFrame p a c where
  reserved : reservedZero a = true → reservedZero c = true
  mode : legalMode a = true → legalMode c = true
  thumb : c.getLsbD 5 = a.getLsbD 5

/-- From `s` to `t` nothing changes but what the scope has. -/
structure Framed (p : Scope) (s t : State) : Prop where
  gpr : ∀ k, k ∉ p.cells → t.gpr.get k = s.gpr.get k
  psr : PsrFrame p s.cpsr t.cpsr
  spsr : p.spsr ∨ t.spsr = s.spsr
  monitor : p.monitor ∨ t.monitor = s.monitor
  quiet : p.span = none → t.mem = s.mem ∧ t.written = s.written
  mem : ∀ a n, p.span = some (a, n) → ∀ x, (x < a ∨ a + n ≤ x) →
    t.mem.read x = s.mem.read x ∧ (x ∈ t.written ↔ x ∈ s.written)
  coprocs : ∀ k : Fin 16, (∀ cp, p.cp = some cp → cpIndex cp ≠ k) → t.coprocs.get k = s.coprocs.get k
  platform : t.platform = s.platform
  lines : t.lines = s.lines

/-- Within an instruction: the PC is still the instruction's, and a legal state stays legal. -/
structure Touched (p : Scope) (s t : State) : Prop where
  framed : Framed p s t
  pc : t.pc = s.pc
  inv : s.Inv → t.Inv

/-- The three ways an instruction ends: it goes on, it goes elsewhere, or it takes an exception. -/
inductive Effect (p : Scope) (s : State) : State → Prop
  | next {u : State} (touched : Touched p s u) (hpc : s.pc.toNat + 4 < 2 ^ 32) : Effect p s { u with pc := s.pc + 4 }
  | branch {t : State} (hp : p.pc) (framed : Framed p s t) (inv : s.Inv → t.Inv) : Effect p s t
  | exception {u : State} (k : ExceptionKind) (touched : Touched p s u) (hcpsr : u.cpsr = s.cpsr) (hspsr : u.spsr = s.spsr) :
      Effect p s (takeException k u)

/-- Every state an outcome leads to is within the scope. -/
def Effects (p : Scope) (s : State) (o : Out) : Prop := ∀ t, o = .next t → Effect p s t

variable {p : Scope} {s t : State}

/-! ### Changes of the status register -/

/-- No change. -/
theorem PsrKept.refl (p : Scope) (a : Word) : PsrKept p a a where
  bits := fun _ _ _ => rfl
  user := fun _ _ _ _ => rfl
  q := Or.inr id
  reserved := id
  mode := id
  thumb := rfl

/-- A bit of a mask is one of a larger mask. -/
theorem getLsbD_of_subset {m b : Word} (h : m &&& ~~~b = 0) {k : Nat} (hk : k < 32) (hm : m.getLsbD k = true) :
    b.getLsbD k = true := by
  have hbit := congrArg (fun v : Word => v.getLsbD k) h
  simpa only [BitVec.getLsbD_and, BitVec.getLsbD_not, hk, decide_true, Bool.true_and, hm, Bool.not_eq_false',
    show ((0 : Word).getLsbD k) = false from BitVec.getLsbD_zero] using hbit

/-- A change of user bits only, under a mask that is within the scope. -/
theorem PsrKept.ofUserBits {a c mask : Word} (huser : mask &&& ~~~(userMask : Word) = 0)
    (hscope : ∀ k < 32, mask.getLsbD k = true → p.bits.getLsbD k = true)
    (hsame : ∀ k < 32, mask.getLsbD k = false → c.getLsbD k = a.getLsbD k)
    (hq : p.clearsQ ∨ (a.getLsbD 27 = true → c.getLsbD 27 = true)) : PsrKept p a c := by
  have hkeep : ∀ k < 32, userMask.getLsbD k = false → c.getLsbD k = a.getLsbD k := fun k hk hu => by
    exact hsame k hk (Bool.eq_false_iff.2 fun hm => by rw [getLsbD_of_subset huser hk hm] at hu; cases hu)
  have hlow : ∀ k < 5, c.getLsbD k = a.getLsbD k := fun k hk => hkeep k (by omega) (by interval_cases k <;> rfl)
  exact {
    bits := fun k hk hp => hsame k hk (Bool.eq_false_iff.2 fun hm => by rw [hscope k hk hm] at hp; cases hp)
    user := fun _ k hk hm => hkeep k hk (by revert hm; interval_cases k <;> decide)
    q := hq
    reserved := reservedZero_congr fun k hk hm => hkeep k hk (by revert hm; interval_cases k <;> decide)
    mode := fun h => by rw [legalMode, modeBits_congr hlow]; exact h
    thumb := hkeep 5 (by decide) rfl }

/-! ### Updates -/

/-- Nothing changed. -/
theorem Framed.refl (p : Scope) (s : State) : Framed p s s where
  gpr := fun _ _ => rfl
  psr := (PsrKept.refl p s.cpsr).toPsrFrame
  spsr := Or.inr rfl
  monitor := Or.inr rfl
  quiet := fun _ => ⟨rfl, rfl⟩
  mem := fun _ _ _ _ _ => ⟨rfl, Iff.rfl⟩
  coprocs := fun _ _ => rfl
  platform := rfl
  lines := rfl

theorem Touched.refl (p : Scope) (s : State) : Touched p s s := ⟨Framed.refl p s, rfl, id⟩

/-- A register that is in the scope. -/
theorem Touched.setRegOf (h : Touched p s t) {m : Mode} {r : Reg} (v : Word) (hr : r ≠ 15 → cell m r ∈ p.cells) :
    Touched p s (t.setRegOf m r v) where
  framed := { h.framed with
    gpr := fun k hk => by
      by_cases h15 : r = 15
      · subst h15; exact h.framed.gpr k hk
      · rw [setRegOf_gpr _ _ _ _ h15, get_set_other _ _ _ _ fun e => hk (by rw [e]; exact hr h15)]
        exact h.framed.gpr k hk }
  pc := h.pc
  inv := fun hs => inv_congr (h.inv hs) rfl rfl rfl rfl rfl

theorem Touched.setReg (h : Touched p s t) {r : Reg} (v : Word) (hr : r ≠ 15 → cell t.mode r ∈ p.cells) :
    Touched p s (t.setReg r v) := h.setRegOf v hr

/-- A base register written back, where that is in the scope. -/
theorem Touched.writeBack (h : Touched p s t) {w : Bool} {rn : Reg} (v : Word)
    (hr : w = true → rn ≠ 15 → cell t.mode rn ∈ p.cells) : Touched p s (t.writeBack w rn v) := by
  cases w
  · exact h
  · exact h.setReg v (hr rfl)

/-- Registers that are in the scope. -/
theorem Touched.setRegsOf {m : Mode} (rs : List Reg) : ∀ {t : State} (vs : List Word), Touched p s t →
    (∀ r ∈ rs, r ≠ 15 → cell m r ∈ p.cells) → Touched p s (t.setRegsOf m rs vs) := by
  induction rs with
  | nil => intro t vs h _; rw [State.setRegsOf]; exact h; exact fun _ _ _ _ he => nomatch he
  | cons r rs ih =>
    intro t vs h hr
    cases vs with
    | nil => exact h
    | cons v vs =>
      obtain ⟨hfirst, hrest⟩ := List.forall_mem_cons.1 hr
      exact ih vs (h.setRegOf v hfirst) hrest

/-- The status register, changed within the scope. -/
theorem Touched.setCpsr (h : Touched p s t) (hsame : t.cpsr = s.cpsr) {c : Word} (hc : PsrKept p s.cpsr c) :
    Touched p s { t with cpsr := c } where
  framed := { h.framed with psr := hc.toPsrFrame }
  pc := h.pc
  inv := fun hs => by
    have ht := h.inv hs
    refine inv_goto ht (hc.reserved hs.cpsr) (hc.mode hs.mode) ?_
    have halign : ∀ v, alignFor c v = alignFor t.cpsr v := fun v => by rw [alignFor, alignFor, hc.thumb, hsame]
    rw [halign]
    exact ht.pc

/-- The SPSR of a mode. -/
theorem Touched.setSpsrOf (h : Touched p s t) (hp : p.spsr) (m : Mode) {v : Word} (hv : s.Inv → reservedZero v = true) :
    Touched p s (t.setSpsrOf m v) where
  framed := { h.framed with spsr := Or.inl hp }
  pc := h.pc
  inv := fun hs => inv_setSpsrOf (h.inv hs) m (hv hs)

/-- The monitor. -/
theorem Touched.setMonitor (h : Touched p s t) (hp : p.monitor) (m : Option Word) : Touched p s { t with monitor := m } where
  framed := { h.framed with monitor := Or.inl hp }
  pc := h.pc
  inv := fun hs => inv_congr (h.inv hs) rfl rfl rfl rfl rfl

/-- The coprocessor the instruction is offered to. -/
theorem Touched.cpDone (h : Touched p s t) {cp : CpField} (hp : p.cp = some cp) (word : Word) (sent : List Word) :
    Touched p s (t.cpDone cp word sent) where
  framed := { h.framed with
    coprocs := fun k hk => (Vector.getElem_set_ne (cpIndex cp).isLt k.isLt fun e => hk cp hp (Fin.ext e)).trans
      (h.framed.coprocs k hk) }
  pc := h.pc
  inv := fun hs => inv_congr (h.inv hs) rfl rfl rfl rfl rfl

/-- A free value drawn. -/
theorem Touched.drawn (h : Touched p s t) : Touched p s t.drawn where
  framed := { h.framed with }
  pc := h.pc
  inv := fun hs => inv_congr (h.inv hs) rfl rfl rfl rfl rfl

/-- Registers that have become unknown. -/
theorem Touched.freeRegs {m : Mode} (rs : List Reg) : ∀ {t : State}, Touched p s t →
    (∀ r ∈ rs, r ≠ 15 → cell m r ∈ p.cells) → Touched p s (t.freeRegs m rs) := by
  induction rs with
  | nil => exact fun h _ => h
  | cons r rs ih =>
    intro t h hr
    obtain ⟨hfirst, hrest⟩ := List.forall_mem_cons.1 hr
    exact ih (h.setRegOf _ hfirst).drawn hrest

/-- Bytes that are in the scope. -/
theorem Touched.withStored (h : Touched p s t) {b m n : Nat} {a : Word} (w : Word) (hp : p.span = some (b, m))
    (hlow : b ≤ a.toNat) (hhigh : a.toNat + n ≤ b + m) (htop : a.toNat + n ≤ 2 ^ 32) : Touched p s (t.withStored n a w) where
  framed := { h.framed with
    quiet := fun hnone => by rw [hnone] at hp; cases hp
    mem := fun b' m' hp' x hx => by
      obtain ⟨rfl, rfl⟩ : b = b' ∧ m = m' := Prod.mk.inj (Option.some.inj (hp.symm.trans hp'))
      obtain ⟨hread, hwritten⟩ := h.framed.mem b m hp x hx
      have houtside : ¬(a.toNat ≤ x ∧ x < a.toNat + n) := by omega
      refine ⟨(read_writeBytes_outside _ _ _ _ (by rw [disassemble_length]; omega)).trans hread, Iff.trans ?_ hwritten⟩
      exact (mem_addAddrs _ _ _ _).trans (or_iff_right houtside) }
  pc := h.pc
  inv := fun hs => inv_withStored (h.inv hs) w htop

/-- The address of the next word, where there is one. -/
theorem next_word {a : Word} {k : Nat} (hk : 0 < k) (htop : a.toNat + 4 * (k + 1) ≤ 2 ^ 32) : (a + 4).toNat = a.toNat + 4 := by
  rw [BitVec.toNat_add, show (4 : Word).toNat = 4 from rfl, Nat.mod_eq_of_lt (by omega)]

/-- Words that are in the scope. -/
theorem Touched.withStoredWords {b m : Nat} (hp : p.span = some (b, m)) (ws : List Word) : ∀ {t : State} {a : Word},
    Touched p s t → b ≤ a.toNat → a.toNat + 4 * ws.length ≤ b + m → a.toNat + 4 * ws.length ≤ 2 ^ 32 →
    Touched p s (t.withStoredWords a ws) := by
  induction ws with
  | nil => exact fun h _ _ _ => h
  | cons w ws ih =>
    intro t a h hlow hhigh htop
    rw [List.length_cons] at hhigh htop
    have hfirst : Touched p s (t.withStored 4 a w) := h.withStored w hp hlow (by omega) (by omega)
    by_cases hne : ws = []
    · subst hne
      exact hfirst
    · have hnext := next_word (List.length_pos_of_ne_nil hne) htop
      exact ih hfirst (by omega) (by omega) (by omega)

/-- Words that have become unknown. -/
theorem Touched.freeWords {b m : Nat} (hp : p.span = some (b, m)) (k : Nat) : ∀ {t : State} {a : Word},
    Touched p s t → b ≤ a.toNat → a.toNat + 4 * k ≤ b + m → a.toNat + 4 * k ≤ 2 ^ 32 → Touched p s (t.freeWords a k) := by
  induction k with
  | zero => exact fun h _ _ _ => h
  | succ k ih =>
    intro t a h hlow hhigh htop
    have hfirst : Touched p s (t.putBytes 4 a t.freeValue).drawn := (h.withStored _ hp hlow (by omega) (by omega)).drawn
    obtain rfl | hpos := Nat.eq_zero_or_pos k
    · exact hfirst
    · have hnext := next_word hpos htop
      exact ih hfirst (by omega) (by omega) (by omega)

/-! ### Ends -/

/-- No state is reached. -/
theorem effects_fault (f : Fault) : Effects p s (.fault f) := fun _ h => nomatch h

theorem effects_refused (r : Refusal) : Effects p s (.refused r) := fun _ h => nomatch h

/-- The next instruction. -/
theorem Touched.advance (h : Touched p s t) : Effects p s (advance t) := fun u hu => by
  obtain ⟨hpc, rfl⟩ := advance_next.1 hu
  rw [h.pc] at hpc ⊢
  exact .next h hpc

/-- An exception; the status registers are still the instruction's. -/
theorem Touched.raise (h : Touched p s t) (k : ExceptionKind) (hcpsr : t.cpsr = s.cpsr) (hspsr : t.spsr = s.spsr) :
    Effects p s (raise k t) := fun u hu => by
  rw [raise_next.1 hu]
  exact .exception k h hcpsr hspsr

/-- An exception before any change. -/
theorem effects_raise (k : ExceptionKind) : Effects p s (raise k s) := (Touched.refl p s).raise k rfl rfl

/-- Control goes to an aligned address. -/
theorem Touched.jump (h : Touched p s t) (hp : p.pc) {target : Word} (halign : s.Inv → t.Inv → alignFor t.cpsr target = target) :
    Effects p s (.next (t.jump target)) := fun u hu => by
  obtain rfl := Host.Outcome.next.inj hu
  exact .branch hp { h.framed with } fun hs => inv_goto (h.inv hs) (h.inv hs).cpsr (h.inv hs).mode (halign hs (h.inv hs))

/-- An address whose bit 0 selects the state, without that bit, is aligned for that state (10_state.md R40). -/
theorem interwork_aligned {v : Word} (psr : Word) (hv : v.extractLsb' 0 2 ≠ 0b10) :
    alignFor (withBit psr 5 (v.getLsbD 0)) (v &&& 0xFFFFFFFE) = v &&& 0xFFFFFFFE := by
  rw [alignFor, getLsbD_withBit _ _ _ _ (by decide) (by decide), if_pos rfl]
  cases hbit : v.getLsbD 0
  · have hlow : v.toNat % 4 ≠ 2 := fun h => hv (BitVec.eq_of_toNat_eq (by rw [BitVec.extractLsb'_toNat]; exact h))
    have heven : v.toNat % 2 = 0 := by
      rw [BitVec.getLsbD, Nat.testBit_zero] at hbit
      simpa using hbit
    have hfour : alignFor 0 v = v := alignFor_eq_self.2 (by show v.toNat % 4 = 0; omega)
    have htwo : alignFor 0x20 v = v := alignFor_eq_self.2 heven
    exact (congrArg (· &&& 0xFFFFFFFC) htwo).trans (hfour.trans htwo.symm)
  · rw [if_pos rfl, BitVec.and_assoc, BitVec.and_self]

/-- Control goes to an address aligned for the state that T then selects. -/
theorem Touched.exchange (h : Touched p s t) (hp : p.pc) (hbit : p.bits.getLsbD 5 = true) {b : Bool} {target : Word}
    (halign : s.Inv → alignFor (withBit s.cpsr 5 b) target = target) :
    Effects p s (.next { t with cpsr := withBit s.cpsr 5 b, pc := target }) := fun u hu => by
  obtain rfl := Host.Outcome.next.inj hu
  have hkeep : ∀ k < 32, k ≠ 5 → (withBit s.cpsr 5 b).getLsbD k = s.cpsr.getLsbD k := fun k hk hne => by
    rw [getLsbD_withBit _ _ _ _ (by decide) hk, if_neg (Ne.symm hne)]
  have hframe : PsrFrame p s.cpsr (withBit s.cpsr 5 b) := {
    bits := fun k hk hb => hkeep k hk fun e => by rw [e, hbit] at hb; cases hb
    user := fun _ k hk hm => hkeep k hk fun e => by rw [e] at hm; cases hm
    q := Or.inr fun hq => by rw [hkeep 27 (by decide) (by decide)]; exact hq }
  refine .branch hp { h.framed with psr := hframe } fun hs => inv_goto (h.inv hs) ?_ ?_ (halign hs)
  · exact reservedZero_congr (fun k hk hm => hkeep k hk fun e => by rw [e] at hm; cases hm) hs.cpsr
  · rw [legalMode, modeBits_withBit _ _ _ (by decide) (by decide)]
    exact hs.mode

/-- Control goes to an address that selects the state. -/
theorem Touched.interwork (h : Touched p s t) (hp : p.pc) (hsame : t.cpsr = s.cpsr) (hbit : p.bits.getLsbD 5 = true) (v : Word) :
    Effects p s (interwork t v) := by
  refine fun u hu => ?_
  obtain ⟨hv, rfl⟩ := interwork_next.1 hu
  rw [hsame]
  exact h.exchange hp hbit (fun _ => interwork_aligned _ hv) _ rfl

/-- Control returns from an exception. -/
theorem Touched.exceptionReturn (h : Touched p s t) (hp : p.pc) (hbits : p.bits = BitVec.allOnes 32)
    (hmode : modeBits s.cpsr ≠ 0b10000) {psr : Word} (hpsr : s.Inv → reservedZero psr = true) (v : Word) :
    Effects p s (exceptionReturn t psr v) := fun u hu => by
  obtain ⟨hlegal, rfl⟩ := exceptionReturn_next.1 hu
  have hq : p.clearsQ := by rw [Scope.clearsQ, hbits]; decide
  have hframe : PsrFrame p s.cpsr psr := {
    bits := fun k hk hb => by
      rw [hbits, BitVec.getLsbD_allOnes, decide_eq_true hk] at hb
      cases hb
    user := fun huser => absurd huser hmode
    q := Or.inl hq }
  exact .branch hp { h.framed with psr := hframe } fun hs =>
    inv_goto (h.inv hs) (hpsr hs) hlegal (alignFor_alignFor psr v)

/-! ### What comes before the end -/

/-- A condition: where it fails the instruction only goes on. -/
theorem Effects.whenCond {o : Out} (h : Effects p s o) (c : Cond) : Effects p s (whenCond c s o) := by
  rw [Machine.whenCond]
  split
  · exact h
  · exact (Touched.refl p s).advance

/-- A check of registers. -/
theorem Effects.unlessPc {o : Out} (h : Effects p s o) (rs : List Reg) : Effects p s (unlessPc rs o) := by
  rw [Machine.unlessPc]
  split
  · exact effects_fault _
  · exact h

theorem Effects.unlessSame {o : Out} (h : Effects p s o) (a b : Reg) : Effects p s (unlessSame a b o) := by
  rw [Machine.unlessSame]
  split
  · exact effects_fault _
  · exact h

/-- A choice. -/
theorem effects_ite {c : Prop} [Decidable c] {o o' : Out} (h : c → Effects p s o) (h' : ¬c → Effects p s o') :
    Effects p s (if c then o else o') := by
  split
  · next hc => exact h hc
  · next hc => exact h' hc

/-- A check of alignment. -/
theorem Effects.whenAligned {o : Out} (h : Effects p s o) (n : Nat) (a : Word) : Effects p s (whenAligned n a s o) := by
  rw [Machine.whenAligned]
  exact effects_ite (fun _ => effects_fault _) fun _ => effects_ite (fun _ => effects_raise _) fun _ => h

/-- A load, and what is done with its value. -/
theorem effects_afterLoad {α : Type} {r : Access α} {k : α → Out} (h : ∀ a, r = .ok a → Effects p s (k a)) :
    Effects p s (afterLoad s r k) := by
  cases r with
  | ok a => exact h a rfl
  | abort d => exact effects_raise _
  | fault f => exact effects_fault _

/-- One store, and what is done after it; aborted, nothing is unknown. -/
theorem effects_afterStore {v : Privilege} {n : Nat} {a w : Word} {k : State → Out} (hp : p.span = some (a.toNat, n))
    (h : Touched p s (s.withStored n a w) → Effects p s (k (s.withStored n a w))) :
    Effects p s (afterStore s a (s.store v n a w) k) := by
  cases hstore : s.store v n a w with
  | ok t =>
    obtain ⟨hwrite, rfl⟩ := store_ok.1 hstore
    exact h ((Touched.refl p s).withStored w hp (Nat.le_refl _) (Nat.le_refl _) hwrite.1)
  | abort d =>
    obtain ⟨-, -, rfl⟩ := store_abort.1 hstore
    exact effects_raise _
  | fault f => exact effects_fault _

/-- One store in an instruction that goes on as a load does. -/
theorem effects_afterLoad_store {v : Privilege} {n : Nat} {a w : Word} {k : State → Out} (hp : p.span = some (a.toNat, n))
    (h : Touched p s (s.withStored n a w) → Effects p s (k (s.withStored n a w))) :
    Effects p s (afterLoad s (s.store v n a w) k) := by
  refine effects_afterLoad fun t ht => ?_
  obtain ⟨hwrite, rfl⟩ := store_ok.1 ht
  exact h ((Touched.refl p s).withStored w hp (Nat.le_refl _) (Nat.le_refl _) hwrite.1)

/-- A run of stores that is done. -/
theorem storeBlock_next {a : Word} {ws : List Word} {u : State} (h : t.storeBlock a ws = .ok u) :
    a.toNat + 4 * ws.length ≤ 2 ^ 32 ∧ u = t.withStoredWords a ws := by
  rw [State.storeBlock] at h
  split at h
  · cases h
  · next htop => exact ⟨crossesTop_false.1 (Bool.eq_false_iff.2 htop), (storeWords_next ws h).1⟩

/-- A run of stores, and what is done after it; aborted, the words stored are unknown. -/
theorem effects_afterStoreBlock {a : Word} {ws : List Word} {k : State → Out} (ht : Touched p s t) (hcpsr : t.cpsr = s.cpsr)
    (hspsr : t.spsr = s.spsr) (hp : p.span = some (a.toNat, 4 * ws.length))
    (h : Touched p s (t.withStoredWords a ws) → Effects p s (k (t.withStoredWords a ws))) :
    Effects p s (afterStore t a (t.storeBlock a ws) k) := by
  cases hstore : t.storeBlock a ws with
  | ok u =>
    obtain ⟨htop, rfl⟩ := storeBlock_next hstore
    exact h (ht.withStoredWords hp ws (Nat.le_refl _) (Nat.le_refl _) htop)
  | abort d =>
    obtain ⟨htop, hd, -⟩ := storeBlock_abort.1 hstore
    obtain ⟨-, -, hcpsr', hspsr', -⟩ := freeWords_fields d t a
    have hwords : Touched p s (t.freeWords a d) := ht.freeWords hp d (Nat.le_refl _) (by omega) (by omega)
    exact hwords.raise _ (hcpsr'.trans hcpsr) (hspsr'.trans hspsr)
  | fault f => exact effects_fault _

/-- An aborted load of several registers. -/
theorem effects_abortedLoad {m : Mode} {base : Reg} {loaded : List Reg} (h : ∀ r ∈ loaded, r ≠ 15 → cell m r ∈ p.cells) :
    Effects p s (abortedLoad s m base loaded) := by
  have hregs := (Touched.refl p s).freeRegs (loaded.filter fun r => r != 15 && s.notBase m base r) fun r hr =>
    h r (List.mem_filter.1 hr).1
  obtain ⟨-, hcpsr, hspsr, -⟩ := freeRegs_fields m (loaded.filter fun r => r != 15 && s.notBase m base r) s
  exact hregs.raise _ hcpsr hspsr

/-- An offer to a coprocessor. -/
theorem effects_offer {cp : CpField} {word : Word} {k : CpReply → Out} (h : ∀ r, s.cpReply cp word = some r → Effects p s (k r)) :
    Effects p s (offer cp word s k) := by
  rw [offer]
  split
  · next r hr => exact h r hr
  · exact effects_raise _

end Sys2Proof.Proofs

/-! The effect of each shared operation: data processing, multiplies, the register operations, the status register instructions,
loads and stores, and the coprocessor instructions. Each needs of the scope what it changes. -/
namespace Sys2Proof.Proofs
open Sys2Proof Sys2Proof.Machine Sys2Proof.Laws

variable {p : Scope} {s t : State}

/-! ### Changes of the status register -/

/-- Writing the flags leaves the bits below them. -/
theorem getLsbD_withNzcv_low (a : Word) (n z c v : Bool) {k : Nat} (hk : k < 28) : (withNzcv a n z c v).getLsbD k = a.getLsbD k := by
  rw [getLsbD_withNzcv _ _ _ _ _ _ (by omega), if_neg (by omega), if_neg (by omega), if_neg (by omega), if_neg (by omega)]

/-- The four flags. -/
theorem PsrKept.nzcv {a : Word} (n z c v : Bool) (hp : p.bits = 0xF0000000) : PsrKept p a (withNzcv a n z c v) := by
  refine PsrKept.ofUserBits (mask := 0xF0000000) (by decide) (fun k _ h => hp ▸ h) (fun k hk hm => ?_) (Or.inr fun h => ?_)
  · exact getLsbD_withNzcv_low a n z c v (by revert hm; interval_cases k <;> decide)
  · rw [getLsbD_withNzcv_low a n z c v (by decide)]
    exact h

/-- N and Z, with C and V as they are. -/
theorem PsrKept.nz {a : Word} (n z : Bool) (hp : p.bits = 0xC0000000) :
    PsrKept p a (withNzcv a n z (a.getLsbD 29) (a.getLsbD 28)) := by
  refine PsrKept.ofUserBits (mask := 0xC0000000) (by decide) (fun k _ h => hp ▸ h) (fun k hk hm => ?_) (Or.inr fun h => ?_)
  · have h30 : k < 30 := by revert hm; interval_cases k <;> decide
    rw [getLsbD_withNzcv _ _ _ _ _ _ hk, if_neg (by omega), if_neg (by omega)]
    obtain h28 | rfl | rfl : k < 28 ∨ k = 28 ∨ k = 29 := by omega
    · rw [if_neg (by omega), if_neg (by omega)]
    · rfl
    · rfl
  · rw [getLsbD_withNzcv_low a n z _ _ (by decide)]
    exact h

/-- A user bit written under a mask. -/
theorem PsrKept.withMask {a mask : Word} (v : Word) (huser : mask &&& ~~~(userMask : Word) = 0)
    (hp : ∀ k < 32, mask.getLsbD k = true → p.bits.getLsbD k = true) (hq : p.clearsQ ∨ mask.getLsbD 27 = false) :
    PsrKept p a (withMask a mask v) := by
  refine PsrKept.ofUserBits huser hp (fun k hk hm => ?_) (hq.imp_right fun hm h => ?_)
  · rw [getLsbD_withMask _ _ _ _ hk, hm]; rfl
  · rw [getLsbD_withMask _ _ _ _ (by decide), hm]
    exact h

/-- One user bit other than Q. -/
theorem PsrKept.withBit {a : Word} {i : Nat} (b : Bool) (hi : i < 32) (huser : (1 : Word) <<< i &&& ~~~(userMask : Word) = 0)
    (hp : p.bits.getLsbD i = true) (hq : i = 27 → b = true) : PsrKept p a (withBit a i b) := by
  have hbit : ∀ k < 32, ((1 : Word) <<< i).getLsbD k = decide (i = k) := fun k hk => getLsbD_one_shift i k hi hk
  refine PsrKept.ofUserBits huser (fun k hk hm => ?_) (fun k hk hm => ?_) (Or.inr fun h => ?_)
  · rw [hbit k hk] at hm
    rw [← of_decide_eq_true hm]; exact hp
  · rw [hbit k hk] at hm
    rw [getLsbD_withBit _ _ _ _ hi hk, if_neg (of_decide_eq_false hm)]
  · rw [getLsbD_withBit _ _ _ _ hi (by decide)]
    split
    · next h27 => exact hq h27
    · exact h

/-! ### One register, and flags -/

/-- A register written. -/
theorem effects_setReg {rd : Reg} (v : Word) (hr : rd ≠ 15 → cell s.mode rd ∈ p.cells) : Effects p s (advance (s.setReg rd v)) :=
  ((Touched.refl p s).setReg v hr).advance

/-- A register written and the status register changed. -/
theorem effects_setReg_setCpsr {rd : Reg} {c : Word} (v : Word) (hr : rd ≠ 15 → cell s.mode rd ∈ p.cells)
    (hc : PsrKept p s.cpsr c) : Effects p s (advance { s.setReg rd v with cpsr := c }) :=
  (((Touched.refl p s).setReg v hr).setCpsr rfl hc).advance

/-- Q set where something saturates, else nothing. -/
theorem PsrKept.setQ {a : Word} {q : Bool} (hp : q = true → p.bits = 0x08000000) :
    PsrKept p a (if q then Machine.withBit a 27 true else a) := by
  cases q
  · exact PsrKept.refl p a
  · exact PsrKept.withBit true (by decide) (by decide) (by rw [hp rfl]; rfl) fun _ => rfl

theorem effects_regOp {c : Cond} {regs : List Reg} {rd : Reg} {v : Word} {q : Bool} (hr : rd ≠ 15 → cell s.mode rd ∈ p.cells)
    (hq : q = true → p.bits = 0x08000000) : Effects p s (regOp c regs rd v q s) :=
  ((effects_setReg_setCpsr v hr (PsrKept.setQ hq)).unlessPc regs).whenCond c

theorem effects_parallel {f : ParPrefix} {op : ParOp} {c : Cond} {rn rd rm : Reg} (hr : rd ≠ 15 → cell s.mode rd ∈ p.cells)
    (hge : f.setsGe = true → p.bits = 0x000F0000) : Effects p s (parallel f op c rn rd rm s) := by
  refine Effects.whenCond (Effects.unlessPc ?_ _) c
  cases hf : f.setsGe
  · exact effects_setReg _ hr
  · exact effects_setReg_setCpsr _ hr (PsrKept.withMask _ (by decide) (fun k _ h => (hge hf) ▸ h) (Or.inr rfl))

/-! ### Multiplies -/

theorem effects_mulWrite {sf : Bool} {rd : Reg} {v : Word} (hr : rd ≠ 15 → cell s.mode rd ∈ p.cells)
    (hbits : sf = true → p.bits = 0xC0000000) : Effects p s (mulWrite s sf rd v) := by
  rw [mulWrite]
  cases sf
  · exact effects_setReg v hr
  · exact effects_setReg_setCpsr v hr (PsrKept.nz _ _ (hbits rfl))

theorem effects_sumWrite {rd : Reg} {r : Int} (hr : rd ≠ 15 → cell s.mode rd ∈ p.cells) (hbits : p.bits = 0x08000000) :
    Effects p s (sumWrite s rd r) :=
  effects_setReg_setCpsr _ hr (PsrKept.setQ fun _ => hbits)

theorem effects_longWrite {sf : Bool} {hi lo : Reg} {v : BitVec 64} (hhi : hi ≠ 15 → cell s.mode hi ∈ p.cells)
    (hlo : lo ≠ 15 → cell s.mode lo ∈ p.cells) (hbits : sf = true → p.bits = 0xC0000000) : Effects p s (longWrite s sf hi lo v) := by
  have hpair := ((Touched.refl p s).setReg (v.extractLsb' 0 32) hlo).setReg (v.extractLsb' 32 32) hhi
  rw [longWrite]
  cases sf
  · exact hpair.advance
  · exact (hpair.setCpsr rfl (PsrKept.nz _ _ (hbits rfl))).advance

/-- The checks of the multiplies. -/
theorem effects_mulOp {o : Out} {c : Cond} {regs : List Reg} (h : Effects p s o) : Effects p s (mulOp c regs s o) :=
  (h.unlessPc regs).whenCond c

theorem effects_longOp {o : Out} {c : Cond} {hi lo rs rm : Reg} (h : Effects p s o) : Effects p s (longOp c hi lo rs rm s o) :=
  ((h.unlessSame hi lo).unlessPc _).whenCond c

/-! ### Data processing -/

/-- A mode with an SPSR is not User mode. -/
theorem not_user_of_spsr {psr : Word} (h : s.spsr? = some psr) : modeBits s.cpsr ≠ 0b10000 := fun huser => by
  rw [State.spsr?, State.mode, huser] at h
  cases h

/-- The SPSR of a legal state has its reserved bits 0. -/
theorem reservedZero_of_spsr {psr : Word} (h : s.spsr? = some psr) (hs : s.Inv) : reservedZero psr = true := by
  obtain ⟨k, -, rfl⟩ := Option.map_eq_some_iff.1 h
  exact hs.spsr k

/-- An address aligned to a word is aligned for either state. -/
theorem alignFor_word (psr v : Word) : alignFor psr (v &&& 0xFFFFFFFC) = v &&& 0xFFFFFFFC := by
  rw [alignFor, BitVec.and_assoc]
  cases psr.getLsbD 5 <;> rfl

theorem effects_dpWrite {sf : Bool} {rd : Option Reg} {r : DpResult}
    (hr : ∀ d, rd = some d → d ≠ 15 → cell s.mode d ∈ p.cells)
    (hflags : (rd = none ∨ sf = true) → rd ≠ some 15 → p.bits = 0xF0000000)
    (hpc : rd = some 15 → p.pc ∧ (sf = true → p.bits = BitVec.allOnes 32)) : Effects p s (dpWrite s sf rd r) := by
  cases rd with
  | none =>
    exact ((Touched.refl p s).setCpsr rfl (PsrKept.nzcv _ _ _ _ (hflags (Or.inl rfl) fun h => nomatch h))).advance
  | some d =>
    rw [dpWrite]
    by_cases hd : d = 15
    · subst hd
      obtain ⟨hp, hall⟩ := hpc rfl
      cases sf
      · exact (Touched.refl p s).jump hp fun _ _ => alignFor_word _ _
      · cases hpsr : s.spsr? with
        | none => exact effects_fault _
        | some psr =>
          exact (Touched.refl p s).exceptionReturn hp (hall rfl) (not_user_of_spsr hpsr) (reservedZero_of_spsr hpsr) _
    · rw [if_neg hd]
      cases sf
      · exact effects_setReg _ (hr d rfl)
      · exact effects_setReg_setCpsr _ (hr d rfl)
          (PsrKept.nzcv _ _ _ _ (hflags (Or.inr rfl) fun h => hd (Option.some.inj h)))

/-- The check of a form's registers. -/
theorem Effects.guarded {o : Operand2} {regs : List Reg} {out : Out} (h : Effects p s out) : Effects p s (guarded o regs out) := by
  cases o with
  | reg rs ty rm => exact h.unlessPc _
  | shift imm5 ty rm => exact h
  | imm rot imm8 => exact h

/-! ### Status registers -/

/-- The reserved bits stay 0 under a mask without them. -/
theorem reservedZero_withMask {a mask : Word} (v : Word) (hmask : mask &&& unallocMask = 0) (ha : reservedZero a = true) :
    reservedZero (Machine.withMask a mask v) = true := by
  rw [reservedZero, beq_iff_eq] at ha ⊢
  rw [withMask_and_disjoint _ _ _ _ hmask, ha]

theorem effects_msrSpsr {mask : BitVec 4} {v : Word} (hp : p.spsr) : Effects p s (msrSpsr s mask v) := by
  rw [msrSpsr]
  split
  · exact effects_fault _
  · next psr hpsr =>
    have hmask : ∀ mask, (byteMask mask &&& (userMask ||| privMask ||| stateMask)) &&& unallocMask = 0 := by decide
    exact ((Touched.refl p s).setSpsrOf hp s.mode fun hs =>
      reservedZero_withMask v (hmask mask) (reservedZero_of_spsr hpsr hs)).advance

/-- What an MSR to the CPSR may write in User mode. -/
theorem PsrKept.msrUser {a : Word} {mask : BitVec 4} (v : Word) (hp : p.bits = byteMask mask &&& 0xF80F03DF) :
    PsrKept p a (Machine.withMask a (byteMask mask &&& Machine.userMask) v) := by
  have huser : ∀ mask, (byteMask mask &&& Machine.userMask) &&& ~~~Machine.userMask = 0 := by decide
  have hsub : ∀ mask, (byteMask mask &&& Machine.userMask) &&& ~~~(byteMask mask &&& 0xF80F03DF) = 0 := by decide
  have hq : ∀ mask, ¬(byteMask mask &&& 0xF80F03DF &&& 0x08000000 = 0 ∨ byteMask mask &&& 0xF80F03DF = 0x08000000) ∨
      (byteMask mask &&& Machine.userMask).getLsbD 27 = false := by decide
  refine PsrKept.withMask v (huser mask) (fun k hk hm => ?_) (by rw [Scope.clearsQ, hp]; exact hq mask)
  rw [hp]
  exact getLsbD_of_subset (hsub mask) hk hm

/-- What an MSR to the CPSR may write in a privileged mode, where it leaves a legal mode. -/
theorem PsrKept.msrPrivileged {a : Word} {mask : BitVec 4} (v : Word) (hp : p.bits = byteMask mask &&& 0xF80F03DF)
    (hmode : modeBits a ≠ 0b10000) (hlegal : legalMode (Machine.withMask a (byteMask mask &&& 0xF80F03DF) v) = true) :
    PsrKept p a (Machine.withMask a (byteMask mask &&& 0xF80F03DF) v) := by
  have hreserved : ∀ mask, (byteMask mask &&& 0xF80F03DF) &&& unallocMask = 0 := by decide
  have hthumb : ∀ mask, (byteMask mask &&& 0xF80F03DF).getLsbD 5 = false := by decide
  have hq : ∀ mask, ¬(byteMask mask &&& 0xF80F03DF &&& 0x08000000 = 0 ∨ byteMask mask &&& 0xF80F03DF = 0x08000000) ∨
      (byteMask mask &&& 0xF80F03DF).getLsbD 27 = false := by decide
  exact {
    bits := fun k hk hb => by rw [getLsbD_withMask _ _ _ _ hk, ← hp, hb]; rfl
    user := fun huser => absurd huser hmode
    q := by
      rw [Scope.clearsQ, hp]
      exact (hq mask).imp_right fun hm h => by rw [getLsbD_withMask _ _ _ _ (by decide), hm]; exact h
    reserved := reservedZero_withMask v (hreserved mask)
    mode := fun _ => hlegal
    thumb := by rw [getLsbD_withMask _ _ _ _ (by decide), hthumb mask]; rfl }

/-- A privileged mode is not User mode. -/
theorem not_user_of_privileged (h : s.privileged = true) : modeBits s.cpsr ≠ 0b10000 := fun huser => by
  rw [user_not_privileged huser] at h
  cases h

theorem effects_msrCpsr {mask : BitVec 4} {v : Word} (hp : p.bits = byteMask mask &&& 0xF80F03DF) :
    Effects p s (msrCpsr s mask v) := by
  cases hpriv : s.privileged
  · have hmask : msrCpsrMask s mask = byteMask mask &&& userMask := by rw [msrCpsrMask, hpriv]; rfl
    simp only [msrCpsr, hpriv, Bool.false_and, hmask]
    exact effects_ite (fun h => nomatch h) fun _ => effects_ite (fun _ => effects_fault _) fun _ =>
      ((Touched.refl p s).setCpsr rfl (PsrKept.msrUser v hp)).advance
  · rw [msrCpsr_privileged hpriv]
    exact effects_ite (fun _ => effects_fault _) fun _ => effects_ite (fun _ => effects_fault _) fun hlegal =>
      ((Touched.refl p s).setCpsr rfl
        (PsrKept.msrPrivileged v hp (not_user_of_privileged hpriv) (Bool.eq_true_of_not_eq_false hlegal))).advance

theorem effects_msr {r : Bool} {mask : BitVec 4} {v : Word} (hspsr : r = true → p.spsr)
    (hp : r = false → p.bits = byteMask mask &&& 0xF80F03DF) : Effects p s (msr s r mask v) := by
  refine effects_ite (fun _ => effects_fault _) fun _ => ?_
  cases r
  · exact effects_msrCpsr (hp rfl)
  · exact effects_msrSpsr (hspsr rfl)

/-- A bit other than the one written where `c`. -/
theorem getLsbD_withBit_where {q : Word} {c b : Bool} {j k : Nat} (hj : j < 32) (hk : k < 32) (hne : k ≠ j) :
    (if c then Machine.withBit q j b else q).getLsbD k = q.getLsbD k := by
  cases c
  · rfl
  · rw [if_pos rfl, getLsbD_withBit _ _ _ _ hj hk, if_neg (Ne.symm hne)]

/-- CPS with no mode writes the masks only. -/
theorem getLsbD_cpsPsr_none {a : Word} {imod : BitVec 2} {x i f : Bool} {k : Nat} (hk : k < 32)
    (h8 : k ≠ 8) (h7 : k ≠ 7) (h6 : k ≠ 6) : (cpsPsr a imod x i f none).getLsbD k = a.getLsbD k := by
  simp only [cpsPsr]
  rw [getLsbD_withBit_where (by decide) hk h6, getLsbD_withBit_where (by decide) hk h7, getLsbD_withBit_where (by decide) hk h8]

/-- CPS writes masks and mode only. -/
theorem getLsbD_cpsPsr {a : Word} {imod : BitVec 2} {x i f : Bool} (m : Option Mode) {k : Nat} (hk : k < 32)
    (hm : (0x1DF : Word).getLsbD k = false) : (cpsPsr a imod x i f m).getLsbD k = a.getLsbD k := by
  obtain ⟨h8, h7, h6, hmode⟩ : k ≠ 8 ∧ k ≠ 7 ∧ k ≠ 6 ∧ (0x1F : Word).getLsbD k = false := by
    revert hm; interval_cases k <;> decide
  have hnone := getLsbD_cpsPsr_none (a := a) (imod := imod) (x := x) (i := i) (f := f) hk h8 h7 h6
  cases m with
  | none => exact hnone
  | some m =>
    refine Eq.trans ?_ hnone
    change (withMode (cpsPsr a imod x i f none) m).getLsbD k = _
    rw [withMode, getLsbD_withMask _ _ _ _ hk, hmode]; rfl

/-- The mode CPS leaves is legal. -/
theorem legalMode_cpsPsr {a : Word} {imod : BitVec 2} {x i f : Bool} (m : Option Mode) (ha : legalMode a = true) :
    legalMode (cpsPsr a imod x i f m) = true := by
  cases m with
  | none =>
    have hlow : ∀ k < 5, (cpsPsr a imod x i f none).getLsbD k = a.getLsbD k := fun k hk =>
      getLsbD_cpsPsr_none (by omega) (by omega) (by omega) (by omega)
    rw [legalMode, modeBits_congr hlow]
    exact ha
  | some m =>
    change legalMode (withMode (cpsPsr a imod x i f none) m) = true
    rw [legalMode, modeBits_withMode, modeOfNumber_number]; rfl

/-- What CPS does in a privileged mode. -/
theorem PsrKept.cps {a : Word} {imod : BitVec 2} {x i f : Bool} (m : Option Mode) (hp : p.bits = 0x1DF)
    (hmode : modeBits a ≠ 0b10000) : PsrKept p a (cpsPsr a imod x i f m) where
  bits := fun k hk hb => getLsbD_cpsPsr m hk (hp ▸ hb)
  user := fun huser => absurd huser hmode
  q := Or.inr fun h => by rw [getLsbD_cpsPsr m (by decide) rfl]; exact h
  reserved := reservedZero_congr fun k hk hu => getLsbD_cpsPsr m hk (by revert hu; interval_cases k <;> decide)
  mode := legalMode_cpsPsr m
  thumb := getLsbD_cpsPsr m (by decide) rfl

theorem effects_cps {imod : BitVec 2} {mm a i f : Bool} {mode : BitVec 5} (hp : p.bits = 0x1DF) :
    Effects p s (execCps imod mm a i f mode s) := by
  have hnop := (Touched.refl p s).advance
  refine effects_ite (fun _ => effects_fault _) fun _ => effects_ite (fun _ => effects_fault _) fun _ => ?_
  exact effects_ite (fun hpriv => ((Touched.refl p s).setCpsr rfl (PsrKept.cps _ hp (not_user_of_privileged hpriv))).advance)
    fun _ => hnop

theorem effects_setend {e : Bool} (hp : p.bits = 0x200) : Effects p s (execSetend e s) :=
  ((Touched.refl p s).setCpsr rfl
    (PsrKept.withBit e (by decide) (by decide) (by rw [hp]; rfl) fun h => absurd h (by decide))).advance

theorem effects_mrs {c : Cond} {r : Bool} {rd : Reg} (hr : rd ≠ 15 → cell s.mode rd ∈ p.cells) :
    Effects p s (execMrs c r rd s) := by
  refine Effects.whenCond (Effects.unlessPc (effects_ite (fun _ => ?_) fun _ => effects_setReg _ hr) _) c
  split
  · exact effects_setReg _ hr
  · exact effects_fault _

/-! ### Branches -/

/-- R14 written by a branch. -/
theorem Touched.link (h14 : cell s.mode 14 ∈ p.cells) : Touched p s s.link := (Touched.refl p s).setReg _ fun _ => h14

/-- A branch of a legal state goes to an aligned address. -/
theorem branchTarget_aligned {psr : Word} (imm24 : BitVec 24) (h : alignFor psr s.pc = s.pc) :
    alignFor psr (branchTarget s imm24) = branchTarget s imm24 := by
  have hoff : (imm24.signExtend 32 <<< 2 : Word).toNat % 4 = 0 := by
    rw [shiftLeft_toNat]
    omega
  exact alignFor_add (alignFor_add h rfl) hoff

theorem effects_b {c : Cond} {imm24 : BitVec 24} (hp : p.pc) : Effects p s (execB c imm24 s) := by
  refine Effects.whenCond (effects_ite (fun _ => ?_) fun _ => effects_fault _) c
  exact (Touched.refl p s).jump hp fun hs _ => branchTarget_aligned imm24 hs.pc

theorem effects_bl {c : Cond} {imm24 : BitVec 24} (hp : p.pc) (h14 : cell s.mode 14 ∈ p.cells) :
    Effects p s (execBl c imm24 s) :=
  Effects.whenCond ((Touched.link h14).jump hp fun hs _ => branchTarget_aligned imm24 hs.pc) c

theorem effects_blx1 {h : Bool} {imm24 : BitVec 24} (hp : p.pc) (hbits : p.bits = 0x20) (h14 : cell s.mode 14 ∈ p.cells) :
    Effects p s (execBlx1 h imm24 s) := by
  refine (Touched.link h14).exchange hp (by rw [hbits]; rfl) fun hs => ?_
  have htarget : (branchTarget s imm24).toNat % 2 = 0 := by
    have haligned := alignFor_eq_self.1 (branchTarget_aligned imm24 hs.pc)
    split at haligned <;> omega
  rw [alignFor_eq_self, getLsbD_withBit _ _ _ _ (by decide) (by decide), if_pos rfl, if_pos rfl, BitVec.toNat_add]
  have hhalf : (if h then 2 else 0 : Word).toNat % 2 = 0 := by cases h <;> rfl
  omega

theorem effects_blx2 {c : Cond} {rm : Reg} (hp : p.pc) (hbits : p.bits = 0x20) (h14 : cell s.mode 14 ∈ p.cells) :
    Effects p s (execBlx2 c rm s) :=
  Effects.whenCond (((Touched.link h14).interwork hp rfl (by rw [hbits]; rfl) _).unlessPc _) c

theorem effects_bx {c : Cond} {rm : Reg} (hp : p.pc) (hbits : p.bits = 0x20) : Effects p s (execBx c rm s) :=
  Effects.whenCond ((Touched.refl p s).interwork hp rfl (by rw [hbits]; rfl) _) c

theorem effects_bxj {c : Cond} {rm : Reg} (hp : p.pc) (hbits : p.bits = 0x20) : Effects p s (execBxj c rm s) :=
  Effects.whenCond (Effects.unlessPc (effects_ite (fun _ => effects_refused _) fun _ =>
    (Touched.refl p s).interwork hp rfl (by rw [hbits]; rfl) _) _) c

/-! ### Exception instructions -/

theorem effects_bkpt {c : Cond} {imm16 : BitVec 16} : Effects p s (execBkpt c imm16 s) :=
  Effects.whenCond (effects_ite (fun _ => effects_fault _) fun _ => effects_ite (fun _ => effects_refused _) fun _ =>
    effects_raise _) c

/-! ### Loads and stores -/

/-- The checks of a single transfer; past them R15 is the register transferred only where it may be. -/
theorem effects_lsOp {o : Out} {c : Cond} {noPc : Bool} {im : IndexMode} {rn rd : Reg} {rm : Option Reg}
    (h : (noPc = true → rd ≠ 15) → Effects p s o) : Effects p s (lsOp c noPc im rn rd rm s o) := by
  refine Effects.whenCond ?_ c
  rw [lsChecks]
  by_cases hrd : noPc = true → rd ≠ 15
  · exact Effects.unlessPc (effects_ite (fun _ => effects_fault _) fun _ => h hrd) _
  · obtain ⟨hno, h15⟩ := Classical.not_imp.1 hrd
    rw [hno, not_not.1 h15, if_pos rfl, unlessPc_fault_of_mem _ (List.mem_append_right _ (List.mem_singleton_self _))]
    exact effects_fault _

/-- Writeback leaves the status register. -/
theorem writeBack_cpsr (s : State) (w : Bool) (rn : Reg) (v : Word) : (s.writeBack w rn v).cpsr = s.cpsr := by
  cases w <;> rfl

theorem effects_loadReg {v : Privilege} {n : Nat} {ext : Word → Word} {im : IndexMode} {u : Bool} {rn rd : Reg} {off : Word}
    (hr : rd ≠ 15 → cell s.mode rd ∈ p.cells) (hbase : writesBack im = true → rn ≠ 15 → cell s.mode rn ∈ p.cells)
    (hpc : rd = 15 → p.pc ∧ p.bits = 0x20) : Effects p s (loadReg v n ext im u rn rd off s) := by
  refine effects_afterLoad fun data _ => ?_
  have hwb := (Touched.refl p s).writeBack (indexed (s.reg rn) off u) hbase
  have hsame := writeBack_cpsr s (writesBack im) rn (indexed (s.reg rn) off u)
  refine effects_ite (fun h15 => ?_) fun _ => ?_
  · exact hwb.interwork (hpc h15).1 hsame (by rw [(hpc h15).2]; rfl) _
  · exact (hwb.setReg _ (by rw [mode_congr hsame]; exact hr)).advance

theorem effects_storeReg {v : Privilege} {n : Nat} {im : IndexMode} {u : Bool} {rn rd : Reg} {off : Word}
    (hbase : writesBack im = true → rn ≠ 15 → cell s.mode rn ∈ p.cells)
    (hp : p.span = some ((accessAddress im (s.reg rn) off u).toNat, n)) : Effects p s (storeReg v n im u rn rd off s) :=
  effects_afterStore hp fun h => (h.writeBack _ hbase).advance

/-- The checks of a doubleword transfer. -/
theorem Effects.pairChecks {o : Out} (h : Effects p s o) {load : Bool} {im : IndexMode} {rn rd : Reg} {rm : Option Reg} :
    Effects p s (pairChecks load im rn rd rm s o) :=
  effects_ite (fun _ => effects_raise _) fun _ => effects_ite (fun _ => effects_fault _) fun _ =>
    Effects.unlessPc (effects_ite (fun _ => effects_fault _) fun _ => effects_ite (fun _ => effects_fault _) fun _ => h) _

theorem effects_loadPair {im : IndexMode} {u : Bool} {rn rd : Reg} {off : Word}
    (hr : ∀ r ∈ [rd, rd + 1], r ≠ 15 → cell s.mode r ∈ p.cells)
    (hbase : writesBack im = true → rn ≠ 15 → cell s.mode rn ∈ p.cells) : Effects p s (loadPair im u rn rd off s) := by
  refine Effects.whenAligned ?_ _ _
  split
  · next ws _ => exact (((Touched.refl p s).writeBack _ hbase).setRegsOf [rd, pairReg rd] ws hr).advance
  · exact effects_abortedLoad fun r hr' => hr r (List.mem_of_mem_take hr')
  · exact effects_fault _

theorem effects_storePair {im : IndexMode} {u : Bool} {rn rd : Reg} {off : Word}
    (hbase : writesBack im = true → rn ≠ 15 → cell s.mode rn ∈ p.cells)
    (hp : p.span = some ((accessAddress im (s.reg rn) off u).toNat, 8)) : Effects p s (storePair im u rn rd off s) :=
  Effects.whenAligned (effects_afterStoreBlock (ws := [s.reg rd, s.reg (pairReg rd)]) (Touched.refl p s) rfl rfl hp fun h =>
    (h.writeBack _ hbase).advance) _ _

theorem effects_ldrex {c : Cond} {rn rd : Reg} (hr : rd ≠ 15 → cell s.mode rd ∈ p.cells) (hp : p.monitor) :
    Effects p s (execLdrex c rn rd s) :=
  Effects.whenCond (Effects.unlessPc (effects_afterLoad fun _ _ =>
    (((Touched.refl p s).setMonitor hp (some (monitorTag s.platform (s.reg rn)))).setReg _ hr).advance) _) c

theorem effects_strex {c : Cond} {rn rd rm : Reg} (hr : rd ≠ 15 → cell s.mode rd ∈ p.cells) (hp : p.monitor)
    (hspan : p.span = some ((s.reg rn).toNat, 4)) : Effects p s (execStrex c rn rd rm s) := by
  refine Effects.whenCond (Effects.unlessPc (Effects.unlessSame (Effects.unlessSame (Effects.whenAligned
    (effects_ite (fun _ => ?_) fun _ => ?_) _ _) _ _) _ _) _) c
  · exact effects_afterLoad_store hspan fun h => ((h.setMonitor hp none).setReg 0 hr).advance
  · exact (((Touched.refl p s).setMonitor hp none).setReg 1 hr).advance

theorem effects_swap {c : Cond} {n : Nat} {rn rd rm : Reg} (hr : rd ≠ 15 → cell s.mode rd ∈ p.cells)
    (hspan : p.span = some ((s.reg rn).toNat, n)) : Effects p s (swap c n rn rd rm s) :=
  Effects.whenCond (Effects.unlessPc (Effects.unlessSame (Effects.unlessSame (effects_afterLoad fun temp _ =>
    effects_afterLoad_store hspan fun h => (h.setReg temp hr).advance) _ _) _ _) _) c

/-! ### Load and store multiple -/

/-- The checks of LDM and STM. -/
theorem Effects.blockChecks {o : Out} (h : Effects p s o) {c : Cond} {rn : Reg} {list : BitVec 16} :
    Effects p s (blockChecks c rn list s o) :=
  Effects.whenCond (Effects.unlessPc (effects_ite (fun _ => effects_fault _) fun _ => h) _) c

/-- A load of several registers, and what is done with the words. -/
theorem effects_loadBlockOf {am : BlockMode} {rn : Reg} {list : BitVec 16} {m : Mode} {k : List Word → Out}
    (hr : ∀ r ∈ regList list, r ≠ 15 → cell m r ∈ p.cells) (h : ∀ ws, Effects p s (k ws)) :
    Effects p s (loadBlockOf am rn list m s k) := by
  rw [loadBlockOf]
  split
  · exact h _
  · exact effects_abortedLoad fun r hr' => hr r (List.mem_of_mem_take hr')
  · exact effects_fault _

/-- The registers of a list and the base register, loaded and written back. -/
theorem Touched.loadedRegs {m : Mode} {list : BitVec 16} (ws : List Word) {w : Bool} {rn : Reg} (v : Word)
    (hr : ∀ r ∈ regList list, r ≠ 15 → cell m r ∈ p.cells) (hbase : w = true → rn ≠ 15 → cell s.mode rn ∈ p.cells) :
    Touched p s ((s.setRegsOf m (lowRegs list) ws).writeBack w rn v) := by
  obtain ⟨-, hcpsr, -⟩ := setRegsOf_fields m (lowRegs list) s ws
  refine ((Touched.refl p s).setRegsOf (lowRegs list) ws fun r hr' => hr r (List.mem_filter.1 hr').1).writeBack v ?_
  rw [mode_congr hcpsr]
  exact hbase

theorem effects_loadMultiple {am : BlockMode} {w : Bool} {rn : Reg} {list : BitVec 16}
    (hr : ∀ r ∈ regList list, r ≠ 15 → cell s.mode r ∈ p.cells) (hbase : w = true → rn ≠ 15 → cell s.mode rn ∈ p.cells)
    (hpc : list.getLsbD 15 = true → p.pc ∧ p.bits = 0x20) : Effects p s (loadMultiple am w rn list s) := by
  refine effects_ite (fun _ => effects_fault _) fun _ => effects_loadBlockOf hr fun ws => ?_
  have hregs := Touched.loadedRegs (p := p) ws (blockEnd am (s.reg rn) (regList list).length) hr hbase
  refine effects_ite (fun h15 => hregs.interwork (hpc h15).1 ?_ (by rw [(hpc h15).2]; rfl) _) fun _ => hregs.advance
  obtain ⟨-, hcpsr, -⟩ := setRegsOf_fields s.mode (lowRegs list) s ws
  rw [writeBack_cpsr, hcpsr]

theorem effects_loadUser {am : BlockMode} {rn : Reg} {list : BitVec 16}
    (hr : ∀ r ∈ regList list, r ≠ 15 → cell .usr r ∈ p.cells) : Effects p s (loadUser am rn list s) :=
  effects_ite (fun _ => effects_fault _) fun _ => effects_loadBlockOf hr fun ws =>
    (Touched.loadedRegs (w := false) (rn := rn) ws 0 hr fun h => nomatch h).advance

theorem effects_loadReturn {am : BlockMode} {w : Bool} {rn : Reg} {list : BitVec 16}
    (hr : ∀ r ∈ regList list, r ≠ 15 → cell s.mode r ∈ p.cells) (hbase : w = true → rn ≠ 15 → cell s.mode rn ∈ p.cells)
    (hpc : p.pc) (hbits : p.bits = BitVec.allOnes 32) : Effects p s (loadReturn am w rn list s) := by
  rw [loadReturn]
  split
  · exact effects_fault _
  · next psr hpsr =>
    exact effects_ite (fun _ => effects_fault _) fun _ => effects_loadBlockOf hr fun ws =>
      (Touched.loadedRegs ws _ hr hbase).exceptionReturn hpc hbits (not_user_of_spsr hpsr) (reservedZero_of_spsr hpsr) _

/-- A store of several registers, from a state in which a value may have been drawn. -/
theorem effects_storeBlockOf {am : BlockMode} {w : Bool} {rn : Reg} {ws : List Word} (ht : Touched p s t) (hcpsr : t.cpsr = s.cpsr)
    (hspsr : t.spsr = s.spsr) (hbase : w = true → rn ≠ 15 → cell s.mode rn ∈ p.cells)
    (hp : p.span = some ((blockStart am (t.reg rn) ws.length).toNat, 4 * ws.length)) :
    Effects p s (storeBlockOf am w rn ws t) := by
  refine effects_afterStoreBlock ht hcpsr hspsr hp fun h => (h.writeBack _ ?_).advance
  rw [mode_congr ((withStoredWords_cpsr _ _ _).trans hcpsr)]
  exact hbase

theorem effects_storeMultiple {am : BlockMode} {w : Bool} {rn : Reg} {list : BitVec 16}
    (hbase : w = true → rn ≠ 15 → cell s.mode rn ∈ p.cells)
    (hp : p.span = some ((blockStart am (s.reg rn) (regList list).length).toNat, 4 * (regList list).length)) :
    Effects p s (storeMultiple am w rn list s) := by
  rw [storeMultiple]
  split
  · exact effects_storeBlockOf (Touched.refl p s).drawn rfl rfl hbase (by rw [List.length_map]; exact hp)
  · exact effects_storeBlockOf (Touched.refl p s) rfl rfl hbase (by rw [List.length_map]; exact hp)

theorem effects_storeUser {am : BlockMode} {rn : Reg} {list : BitVec 16}
    (hp : p.span = some ((blockStart am (s.reg rn) (regList list).length).toNat, 4 * (regList list).length)) :
    Effects p s (storeUser am rn list s) :=
  effects_ite (fun _ => effects_fault _) fun _ => effects_storeBlockOf (Touched.refl p s) rfl rfl (fun h => nomatch h)
    (by rw [List.length_map]; exact hp)

theorem effects_rfe {am : BlockMode} {w : Bool} {rn : Reg} (hbase : w = true → rn ≠ 15 → cell s.mode rn ∈ p.cells) (hpc : p.pc)
    (hbits : p.bits = BitVec.allOnes 32) : Effects p s (returnFromException am w rn s) := by
  refine effects_ite (fun _ => effects_fault _) fun hpriv => effects_afterLoad fun ws _ =>
    effects_ite (fun _ => effects_fault _) fun hres => ?_
  rw [Bool.not_eq_true', Bool.not_eq_false] at hpriv
  refine ((Touched.refl p s).writeBack _ hbase).exceptionReturn hpc hbits (not_user_of_privileged hpriv) (fun _ => ?_) _
  rw [reservedZero, beq_iff_eq]
  exact not_not.1 (mt bne_iff_ne.2 hres)

theorem effects_srs {am : BlockMode} {w : Bool} {mode : BitVec 5}
    (hr : ∀ m, modeOfNumber mode = some m → w = true → cell m 13 ∈ p.cells)
    (hp : ∀ m, modeOfNumber mode = some m → p.span = some ((blockStart am (s.regOf m 13) 2).toNat, 8)) :
    Effects p s (saveReturnState am w mode s) := by
  rw [saveReturnState]
  split
  · exact effects_fault _
  · next psr hpsr =>
    split
    · exact effects_fault _
    · next m hm =>
      refine effects_afterStoreBlock (ws := [s.reg 14, psr]) (Touched.refl p s) rfl rfl (hp m hm) fun h => ?_
      cases w
      · exact h.advance
      · exact (h.setRegOf _ fun _ => hr m hm rfl).advance

/-! ### Coprocessor instructions -/

theorem effects_cpDataOp {cp : CpField} {word : Word} (hcp : p.cp = some cp) : Effects p s (cpDataOp cp word s) :=
  effects_offer fun _ _ => ((Touched.refl p s).cpDone hcp word []).advance

theorem effects_cpSend {cp : CpField} {word : Word} {rd : Reg} (hcp : p.cp = some cp) : Effects p s (cpSend cp word rd s) :=
  effects_offer fun _ _ => Effects.unlessPc ((Touched.refl p s).cpDone hcp word _).advance _

theorem effects_cpSend2 {cp : CpField} {word : Word} {rn rd : Reg} (hcp : p.cp = some cp) :
    Effects p s (cpSend2 cp word rn rd s) :=
  effects_offer fun _ _ => Effects.unlessPc ((Touched.refl p s).cpDone hcp word _).advance _

theorem effects_cpReceive {cp : CpField} {word : Word} {rd : Reg} (hcp : p.cp = some cp)
    (hr : rd ≠ 15 → cell s.mode rd ∈ p.cells) (hbits : rd = 15 → p.bits = 0xF0000000) : Effects p s (cpReceive cp word rd s) := by
  refine effects_offer fun r _ => ?_
  have hdone := (Touched.refl p s).cpDone hcp word []
  exact effects_ite (fun h15 => (hdone.setCpsr rfl (PsrKept.nzcv _ _ _ _ (hbits h15))).advance)
    fun _ => (hdone.setReg r.first hr).advance

theorem effects_cpReceive2 {cp : CpField} {word : Word} {rn rd : Reg} (hcp : p.cp = some cp)
    (hrd : rd ≠ 15 → cell s.mode rd ∈ p.cells) (hrn : rn ≠ 15 → cell s.mode rn ∈ p.cells) :
    Effects p s (cpReceive2 cp word rn rd s) :=
  effects_offer fun r _ => Effects.unlessPc (Effects.unlessSame
    ((((Touched.refl p s).cpDone hcp word []).setReg r.first hrd).setReg r.second hrn).advance _ _) _

theorem effects_cpLoad {cp : CpField} {word : Word} {q u w : Bool} {rn : Reg} {imm8 : BitVec 8} (hcp : p.cp = some cp)
    (hbase : w = true → rn ≠ 15 → cell s.mode rn ∈ p.cells) : Effects p s (cpLoad cp word q u w rn imm8 s) :=
  effects_offer fun _ _ => Effects.unlessPc (effects_afterLoad fun ws _ =>
    (((Touched.refl p s).writeBack _ hbase).cpDone hcp word ws).advance) _

theorem effects_cpStore {cp : CpField} {word : Word} {q u w : Bool} {rn : Reg} {imm8 : BitVec 8} (hcp : p.cp = some cp)
    (hbase : w = true → rn ≠ 15 → cell s.mode rn ∈ p.cells)
    (hp : ∀ r, s.cpReply cp word = some r →
      p.span = some ((cpAddress q u (s.reg rn) imm8).toNat, 4 * (r.more.length + 1))) :
    Effects p s (cpStore cp word q u w rn imm8 s) := by
  refine effects_offer fun r hacc => Effects.unlessPc ?_ _
  refine effects_afterStoreBlock (ws := r.first :: r.more) (Touched.refl p s) rfl rfl (hp r hacc) fun h => ?_
  refine ((h.writeBack _ ?_).cpDone hcp word []).advance
  rw [mode_congr (withStoredWords_cpsr s _ _)]
  exact hbase

end Sys2Proof.Proofs

/-! The effect of each instruction, within the scope the statements give it: `destCells`, `psrBits`, `storeSpan`, `cpOf` and
`WritesPc`. -/
namespace Sys2Proof.Proofs
open Sys2Proof Sys2Proof.Machine Sys2Proof.Laws

/-- What the statements let an instruction change. -/
def scopeOf (i : Instr) (s : State) : Scope where
  cells := destCells i s
  bits := psrBits i
  span := storeSpan i s
  cp := cpOf i
  spsr := (∃ c m r b, i = .msrImm c true m r b) ∨ ∃ c m r, i = .msrReg c true m r
  monitor := (∃ c rn rd, i = .ldrex c rn rd) ∨ ∃ c rn rd rm, i = .strex c rn rd rm
  pc := WritesPc i

/-- A register of a list is among its cells. -/
theorem mem_cells {m : Mode} {rs : List Reg} {r : Reg} (h : r ∈ rs) (hr : r ≠ 15) :
    cell m r ∈ (rs.filter (· != 15)).map (cell m) :=
  List.mem_map_of_mem (List.mem_filter.2 ⟨h, bne_iff_ne.2 hr⟩)

/-- A written-back base register is among the cells of a list that ends with it. -/
theorem base_mem_cells {m : Mode} {rs : List Reg} {w : Bool} {rn : Reg} (hw : w = true) (hrn : rn ≠ 15) :
    cell m rn ∈ ((rs ++ if w then [rn] else []).filter (· != 15)).map (cell m) := by
  rw [hw]
  exact mem_cells (List.mem_append_right _ (List.mem_singleton_self rn)) hrn

/-! ### The forms that share a shape -/

/-- The destination of a data-processing instruction. -/
theorem destCells_dp (op : DpOp) (o : Operand2) (c : Cond) (sf : Bool) (rn rd : Reg) (s : State) :
    destCells (dpForm op o c sf rn rd) s = ((destField op rd).toList.filter (· != 15)).map (cell s.mode) := by
  cases op <;> cases o <;> rfl

/-- The bits of the status register a data-processing instruction may change. -/
theorem psrBits_dp (op : DpOp) (o : Operand2) (c : Cond) (sf : Bool) (rn rd : Reg) : psrBits (dpForm op o c sf rn rd) =
    if isCompare op then 0xF0000000 else if sf then (if rd = 15 then 0xFFFFFFFF else 0xF0000000) else 0 := by
  cases op <;> cases o <;> rfl

/-- A data-processing instruction with a destination may write R15. -/
theorem writesPc_dp {op : DpOp} {o : Operand2} {c : Cond} {sf : Bool} {rn : Reg} (hop : isCompare op = false) :
    WritesPc (dpForm op o c sf rn 15) := by
  refine Or.inr (Or.inr (Or.inr (Or.inr (Or.inr (Or.inr (Or.inl ⟨op, o, c, sf, rn, ?_, rfl⟩))))))
  revert hop
  cases op <;> decide

theorem effects_dp (op : DpOp) (o : Operand2) (c : Cond) (sf : Bool) (rn rd : Reg) (s : State) :
    Effects (scopeOf (dpForm op o c sf rn rd) s) s (exec (dpForm op o c sf rn rd) s) := by
  have hmem : ∀ d, destField op rd = some d → d ≠ 15 → cell s.mode d ∈ destCells (dpForm op o c sf rn rd) s := fun d hd hne => by
    rw [destCells_dp, hd]
    exact mem_cells (List.mem_singleton_self d) hne
  rw [exec_dp]
  refine Effects.whenCond (Effects.guarded (effects_dpWrite hmem (fun hflags hne => ?_) fun hd => ?_)) c
  · refine (psrBits_dp op o c sf rn rd).trans ?_
    cases hop : isCompare op
    · rw [destField, hop] at hflags hne
      have hsf : sf = true := hflags.elim (fun h => nomatch h) id
      rw [if_neg Bool.false_ne_true, hsf, if_pos rfl, if_neg fun h => hne (congrArg some h)]
    · exact if_pos rfl
  · obtain ⟨hop, rfl⟩ : isCompare op = false ∧ rd = 15 := by
      rw [destField] at hd
      split at hd
      · cases hd
      · next hop => exact ⟨Bool.eq_false_iff.2 hop, Option.some.inj hd⟩
    refine ⟨writesPc_dp hop, fun hsf => (psrBits_dp op o c sf rn 15).trans ?_⟩
    rw [hop, Bool.false_or] at hsf
    rw [hop, hsf]; rfl

/-- The scope of a parallel addition or subtraction. -/
theorem scope_par (f : ParPrefix) (op : ParOp) (c : Cond) (rn rd rm : Reg) (s : State) :
    destCells (parForm f op c rn rd rm) s = ([rd].filter (· != 15)).map (cell s.mode) ∧
    (f.setsGe = true → psrBits (parForm f op c rn rd rm) = 0x000F0000) := by
  refine ⟨by cases f <;> cases op <;> rfl, fun h => ?_⟩
  cases f
  case s | u => cases op <;> rfl
  all_goals cases h

theorem effects_par (f : ParPrefix) (op : ParOp) (c : Cond) (rn rd rm : Reg) (s : State) :
    Effects (scopeOf (parForm f op c rn rd rm) s) s (exec (parForm f op c rn rd rm) s) := by
  obtain ⟨hcells, hge⟩ := scope_par f op c rn rd rm s
  rw [exec_parForm]
  refine effects_parallel (fun hrd => ?_) hge
  have hmem : cell s.mode rd ∈ destCells (parForm f op c rn rd rm) s := by
    rw [hcells]
    exact mem_cells (List.mem_singleton_self rd) hrd
  exact hmem

/-- The registers a single load or store may change. -/
theorem destCells_transfer {k : Transfer} {o : Offset} {c : Cond} {im : IndexMode} {u : Bool} {rn rd : Reg} {s : State} :
    destCells (k.form o c im u rn rd) s =
      (((if k.stores then [] else [rd]) ++ if writesBack (k.index im) then [rn] else []).filter (· != 15)).map (cell s.mode) := by
  cases k <;> cases o <;> rfl

/-- The offset of a narrow form, written in twelve bits. -/
theorem setWidth_narrow (imm8 : BitVec 8) : (imm8.setWidth 12).setWidth 8 = imm8 := by
  rw [BitVec.setWidth_setWidth_of_le _ (by decide), BitVec.setWidth_eq]

/-- The bytes a store may change. -/
theorem storeSpan_transfer {k : Transfer} {o : Offset} {c : Cond} {im : IndexMode} {u : Bool} {rn rd : Reg} {s : State}
    (hk : k.stores = true) : storeSpan (k.form o c im u rn rd) s = some ((k.address o im u rn s).toNat, k.bytes) := by
  have hnarrow : ∀ v : BitVec 12, Transfer.strh.offset (.imm ((v.setWidth 8).setWidth 12)) s = Transfer.strh.offset (.imm v) s :=
    fun v => congrArg (BitVec.setWidth 32) (setWidth_narrow (v.setWidth 8))
  cases k <;> cases o
  case strh.imm v =>
    change some ((accessAddress im (s.reg rn) (Transfer.strh.offset (.imm ((v.setWidth 8).setWidth 12)) s) u).toNat, 2) = _
    rw [hnarrow]; rfl
  case str.imm | str.reg | strb.imm | strb.reg | strh.reg | strt.imm | strt.reg | strbt.imm | strbt.reg => rfl
  all_goals cases hk

/-- The load that may name R15 is LDR. -/
theorem eq_ldr {k : Transfer} (hk : k.stores = false) (h : noPcRegister k ≠ true) : k = .ldr := by
  revert hk h
  cases k <;> decide

theorem effects_transfer (k : Transfer) (o : Offset) (c : Cond) (im : IndexMode) (u : Bool) (rn rd : Reg) (s : State) :
    Effects (scopeOf (k.form o c im u rn rd) s) s (exec (k.form o c im u rn rd) s) := by
  have hbase : writesBack (k.index im) = true → rn ≠ 15 → cell s.mode rn ∈ destCells (k.form o c im u rn rd) s := fun hw hrn => by
    rw [destCells_transfer]
    exact base_mem_cells hw hrn
  cases hk : k.stores
  · have hmem : rd ≠ 15 → cell s.mode rd ∈ destCells (k.form o c im u rn rd) s := fun hrd => by
      rw [destCells_transfer, hk]
      exact mem_cells (List.mem_append_left _ (List.mem_singleton_self rd)) hrd
    rw [exec_load hk]
    refine effects_lsOp fun hno => effects_loadReg hmem hbase fun h15 => ?_
    subst h15
    obtain rfl := eq_ldr hk fun h => hno h rfl
    refine ⟨Or.inr (Or.inr (Or.inr (Or.inr (Or.inr (Or.inr (Or.inr (Or.inl ⟨o, c, im, u, rn, rfl⟩))))))), ?_⟩
    cases o <;> rfl
  · rw [exec_store hk]
    exact effects_lsOp fun _ => effects_storeReg hbase (storeSpan_transfer hk)

/-! ### Every instruction -/

/-- The one destination of an instruction. -/
theorem dest_mem {m : Mode} {rd : Reg} : rd ≠ 15 → cell m rd ∈ ([rd].filter (· != 15)).map (cell m) :=
  mem_cells (List.mem_singleton_self rd)

/-- The two destinations of an instruction. -/
theorem first_mem {m : Mode} {a b : Reg} : a ≠ 15 → cell m a ∈ ([a, b].filter (· != 15)).map (cell m) :=
  mem_cells List.mem_cons_self

theorem second_mem {m : Mode} {a b : Reg} : b ≠ 15 → cell m b ∈ ([a, b].filter (· != 15)).map (cell m) :=
  mem_cells (List.mem_cons_of_mem a (List.mem_singleton_self b))

/-- The stack of the mode an SRS names. -/
theorem srs_mem {w : Bool} {mode : BitVec 5} {m : Mode} (hm : modeOfNumber mode = some m) (hw : w = true) :
    cell m 13 ∈ if w then (modeOfNumber mode).toList.map fun m => cell m 13 else [] := by
  rw [hw, hm]
  exact List.mem_singleton_self _

/-- The registers of an LDM (3), R15 apart. -/
theorem mem_regList_of_withPc {list : BitVec 15} {r : Reg} (hr : r ∈ regList (1#1 ++ list)) (h15 : r ≠ 15) :
    r ∈ regList (list.setWidth 16) := by
  rw [regList_withPc] at hr
  exact (List.mem_append.1 hr).resolve_right fun h => h15 (List.mem_singleton.1 h)

/-- The multiple loads that may write R15. -/
theorem writesPc_ldm1 {c : Cond} {am : BlockMode} {w : Bool} {rn : Reg} {list : BitVec 16} (h : list.getLsbD 15 = true) :
    WritesPc (.ldm1 c am w rn list) :=
  .inr (.inr (.inr (.inr (.inr (.inr (.inr (.inr (.inl ⟨_, _, _, _, _, h, rfl⟩))))))))

theorem writesPc_ldm3 {c : Cond} {am : BlockMode} {w : Bool} {rn : Reg} {list : BitVec 15} : WritesPc (.ldm3 c am w rn list) :=
  .inr (.inr (.inr (.inr (.inr (.inr (.inr (.inr (.inr (.inl ⟨_, _, _, _, _, rfl⟩)))))))))

theorem writesPc_rfe {am : BlockMode} {w : Bool} {rn : Reg} : WritesPc (.rfe am w rn) :=
  .inr (.inr (.inr (.inr (.inr (.inr (.inr (.inr (.inr (.inr ⟨_, _, _, rfl⟩)))))))))

/-- Every instruction stays within the scope the statements give it. -/
theorem exec_effects (i : Instr) (s : State) : Effects (scopeOf i s) s (exec i s) := by
  cases i with
  | andShift c sf rn rd imm5 ty rm => exact effects_dp .and (.shift imm5 ty rm) c sf rn rd s
  | andReg c sf rn rd rs ty rm => exact effects_dp .and (.reg rs ty rm) c sf rn rd s
  | andImm c sf rn rd rot imm8 => exact effects_dp .and (.imm rot imm8) c sf rn rd s
  | eorShift c sf rn rd imm5 ty rm => exact effects_dp .eor (.shift imm5 ty rm) c sf rn rd s
  | eorReg c sf rn rd rs ty rm => exact effects_dp .eor (.reg rs ty rm) c sf rn rd s
  | eorImm c sf rn rd rot imm8 => exact effects_dp .eor (.imm rot imm8) c sf rn rd s
  | subShift c sf rn rd imm5 ty rm => exact effects_dp .sub (.shift imm5 ty rm) c sf rn rd s
  | subReg c sf rn rd rs ty rm => exact effects_dp .sub (.reg rs ty rm) c sf rn rd s
  | subImm c sf rn rd rot imm8 => exact effects_dp .sub (.imm rot imm8) c sf rn rd s
  | rsbShift c sf rn rd imm5 ty rm => exact effects_dp .rsb (.shift imm5 ty rm) c sf rn rd s
  | rsbReg c sf rn rd rs ty rm => exact effects_dp .rsb (.reg rs ty rm) c sf rn rd s
  | rsbImm c sf rn rd rot imm8 => exact effects_dp .rsb (.imm rot imm8) c sf rn rd s
  | addShift c sf rn rd imm5 ty rm => exact effects_dp .add (.shift imm5 ty rm) c sf rn rd s
  | addReg c sf rn rd rs ty rm => exact effects_dp .add (.reg rs ty rm) c sf rn rd s
  | addImm c sf rn rd rot imm8 => exact effects_dp .add (.imm rot imm8) c sf rn rd s
  | adcShift c sf rn rd imm5 ty rm => exact effects_dp .adc (.shift imm5 ty rm) c sf rn rd s
  | adcReg c sf rn rd rs ty rm => exact effects_dp .adc (.reg rs ty rm) c sf rn rd s
  | adcImm c sf rn rd rot imm8 => exact effects_dp .adc (.imm rot imm8) c sf rn rd s
  | sbcShift c sf rn rd imm5 ty rm => exact effects_dp .sbc (.shift imm5 ty rm) c sf rn rd s
  | sbcReg c sf rn rd rs ty rm => exact effects_dp .sbc (.reg rs ty rm) c sf rn rd s
  | sbcImm c sf rn rd rot imm8 => exact effects_dp .sbc (.imm rot imm8) c sf rn rd s
  | rscShift c sf rn rd imm5 ty rm => exact effects_dp .rsc (.shift imm5 ty rm) c sf rn rd s
  | rscReg c sf rn rd rs ty rm => exact effects_dp .rsc (.reg rs ty rm) c sf rn rd s
  | rscImm c sf rn rd rot imm8 => exact effects_dp .rsc (.imm rot imm8) c sf rn rd s
  | tstShift c rn imm5 ty rm => exact effects_dp .tst (.shift imm5 ty rm) c false rn 0 s
  | tstReg c rn rs ty rm => exact effects_dp .tst (.reg rs ty rm) c false rn 0 s
  | tstImm c rn rot imm8 => exact effects_dp .tst (.imm rot imm8) c false rn 0 s
  | teqShift c rn imm5 ty rm => exact effects_dp .teq (.shift imm5 ty rm) c false rn 0 s
  | teqReg c rn rs ty rm => exact effects_dp .teq (.reg rs ty rm) c false rn 0 s
  | teqImm c rn rot imm8 => exact effects_dp .teq (.imm rot imm8) c false rn 0 s
  | cmpShift c rn imm5 ty rm => exact effects_dp .cmp (.shift imm5 ty rm) c false rn 0 s
  | cmpReg c rn rs ty rm => exact effects_dp .cmp (.reg rs ty rm) c false rn 0 s
  | cmpImm c rn rot imm8 => exact effects_dp .cmp (.imm rot imm8) c false rn 0 s
  | cmnShift c rn imm5 ty rm => exact effects_dp .cmn (.shift imm5 ty rm) c false rn 0 s
  | cmnReg c rn rs ty rm => exact effects_dp .cmn (.reg rs ty rm) c false rn 0 s
  | cmnImm c rn rot imm8 => exact effects_dp .cmn (.imm rot imm8) c false rn 0 s
  | orrShift c sf rn rd imm5 ty rm => exact effects_dp .orr (.shift imm5 ty rm) c sf rn rd s
  | orrReg c sf rn rd rs ty rm => exact effects_dp .orr (.reg rs ty rm) c sf rn rd s
  | orrImm c sf rn rd rot imm8 => exact effects_dp .orr (.imm rot imm8) c sf rn rd s
  | movShift c sf rd imm5 ty rm => exact effects_dp .mov (.shift imm5 ty rm) c sf 0 rd s
  | movReg c sf rd rs ty rm => exact effects_dp .mov (.reg rs ty rm) c sf 0 rd s
  | movImm c sf rd rot imm8 => exact effects_dp .mov (.imm rot imm8) c sf 0 rd s
  | bicShift c sf rn rd imm5 ty rm => exact effects_dp .bic (.shift imm5 ty rm) c sf rn rd s
  | bicReg c sf rn rd rs ty rm => exact effects_dp .bic (.reg rs ty rm) c sf rn rd s
  | bicImm c sf rn rd rot imm8 => exact effects_dp .bic (.imm rot imm8) c sf rn rd s
  | mvnShift c sf rd imm5 ty rm => exact effects_dp .mvn (.shift imm5 ty rm) c sf 0 rd s
  | mvnReg c sf rd rs ty rm => exact effects_dp .mvn (.reg rs ty rm) c sf 0 rd s
  | mvnImm c sf rd rot imm8 => exact effects_dp .mvn (.imm rot imm8) c sf 0 rd s
  | mul | mla => exact effects_mulOp (effects_mulWrite dest_mem fun h => if_pos h)
  | smulwY | smulXY | smusd | smmul | smmla | smmls => exact effects_mulOp (effects_mulWrite dest_mem fun h => nomatch h)
  | smlaXY | smlawY | smuad | smlad | smlsd => exact effects_mulOp (effects_sumWrite dest_mem rfl)
  | umull | umlal | smull | smlal => exact effects_longOp (effects_longWrite first_mem second_mem fun h => if_pos h)
  | umaal | smlalXY | smlald | smlsld =>
    exact effects_longOp (effects_longWrite first_mem second_mem fun h => nomatch h)
  | sadd16 c rn rd rm => exact effects_par .s .add16 c rn rd rm s
  | saddsubx c rn rd rm => exact effects_par .s .addsubx c rn rd rm s
  | ssubaddx c rn rd rm => exact effects_par .s .subaddx c rn rd rm s
  | ssub16 c rn rd rm => exact effects_par .s .sub16 c rn rd rm s
  | sadd8 c rn rd rm => exact effects_par .s .add8 c rn rd rm s
  | ssub8 c rn rd rm => exact effects_par .s .sub8 c rn rd rm s
  | qadd16 c rn rd rm => exact effects_par .q .add16 c rn rd rm s
  | qaddsubx c rn rd rm => exact effects_par .q .addsubx c rn rd rm s
  | qsubaddx c rn rd rm => exact effects_par .q .subaddx c rn rd rm s
  | qsub16 c rn rd rm => exact effects_par .q .sub16 c rn rd rm s
  | qadd8 c rn rd rm => exact effects_par .q .add8 c rn rd rm s
  | qsub8 c rn rd rm => exact effects_par .q .sub8 c rn rd rm s
  | shadd16 c rn rd rm => exact effects_par .sh .add16 c rn rd rm s
  | shaddsubx c rn rd rm => exact effects_par .sh .addsubx c rn rd rm s
  | shsubaddx c rn rd rm => exact effects_par .sh .subaddx c rn rd rm s
  | shsub16 c rn rd rm => exact effects_par .sh .sub16 c rn rd rm s
  | shadd8 c rn rd rm => exact effects_par .sh .add8 c rn rd rm s
  | shsub8 c rn rd rm => exact effects_par .sh .sub8 c rn rd rm s
  | uadd16 c rn rd rm => exact effects_par .u .add16 c rn rd rm s
  | uaddsubx c rn rd rm => exact effects_par .u .addsubx c rn rd rm s
  | usubaddx c rn rd rm => exact effects_par .u .subaddx c rn rd rm s
  | usub16 c rn rd rm => exact effects_par .u .sub16 c rn rd rm s
  | uadd8 c rn rd rm => exact effects_par .u .add8 c rn rd rm s
  | usub8 c rn rd rm => exact effects_par .u .sub8 c rn rd rm s
  | uqadd16 c rn rd rm => exact effects_par .uq .add16 c rn rd rm s
  | uqaddsubx c rn rd rm => exact effects_par .uq .addsubx c rn rd rm s
  | uqsubaddx c rn rd rm => exact effects_par .uq .subaddx c rn rd rm s
  | uqsub16 c rn rd rm => exact effects_par .uq .sub16 c rn rd rm s
  | uqadd8 c rn rd rm => exact effects_par .uq .add8 c rn rd rm s
  | uqsub8 c rn rd rm => exact effects_par .uq .sub8 c rn rd rm s
  | uhadd16 c rn rd rm => exact effects_par .uh .add16 c rn rd rm s
  | uhaddsubx c rn rd rm => exact effects_par .uh .addsubx c rn rd rm s
  | uhsubaddx c rn rd rm => exact effects_par .uh .subaddx c rn rd rm s
  | uhsub16 c rn rd rm => exact effects_par .uh .sub16 c rn rd rm s
  | uhadd8 c rn rd rm => exact effects_par .uh .add8 c rn rd rm s
  | uhsub8 c rn rd rm => exact effects_par .uh .sub8 c rn rd rm s
  | sxtab16 | sxtb16 | sxtab | sxtb | sxtah | sxth | uxtab16 | uxtb16 | uxtab | uxtb | uxtah | uxth | clz | usad8 | usada8
  | pkhbt | pkhtb | rev | rev16 | revsh | sel =>
    exact effects_regOp dest_mem fun h => nomatch h
  | ssat | ssat16 | usat | usat16 | qadd | qsub | qdadd | qdsub =>
    exact effects_regOp dest_mem fun _ => rfl
  | mrs c r rd => exact effects_mrs dest_mem
  | msrImm c r mask rot imm8 =>
    refine Effects.whenCond (effects_msr (fun h => ?_) fun h => ?_) c <;> subst h
    · exact Or.inl ⟨_, _, _, _, rfl⟩
    · rfl
  | msrReg c r mask rm =>
    refine Effects.whenCond (Effects.unlessPc (effects_msr (fun h => ?_) fun h => ?_) _) c <;> subst h
    · exact Or.inr ⟨_, _, _, rfl⟩
    · rfl
  | cps => exact effects_cps rfl
  | setend e => exact effects_setend rfl
  | b c imm24 => exact effects_b (.inl ⟨_, _, rfl⟩)
  | bl c imm24 => exact effects_bl (.inr (.inl ⟨_, _, rfl⟩)) (dest_mem (by decide))
  | blx1 h imm24 => exact effects_blx1 (.inr (.inr (.inl ⟨_, _, rfl⟩))) rfl (dest_mem (by decide))
  | blx2 c rm => exact effects_blx2 (.inr (.inr (.inr (.inl ⟨_, _, rfl⟩)))) rfl (dest_mem (by decide))
  | bx c rm => exact effects_bx (.inr (.inr (.inr (.inr (.inl ⟨_, _, rfl⟩))))) rfl
  | bxj c rm => exact effects_bxj (.inr (.inr (.inr (.inr (.inr (.inl ⟨_, _, rfl⟩)))))) rfl
  | ldrImm c im u rn rd imm12 => exact effects_transfer .ldr (.imm imm12) c im u rn rd s
  | ldrReg c im u rn rd imm5 ty rm => exact effects_transfer .ldr (.reg imm5 ty rm) c im u rn rd s
  | ldrbImm c im u rn rd imm12 => exact effects_transfer .ldrb (.imm imm12) c im u rn rd s
  | ldrbReg c im u rn rd imm5 ty rm => exact effects_transfer .ldrb (.reg imm5 ty rm) c im u rn rd s
  | strImm c im u rn rd imm12 => exact effects_transfer .str (.imm imm12) c im u rn rd s
  | strReg c im u rn rd imm5 ty rm => exact effects_transfer .str (.reg imm5 ty rm) c im u rn rd s
  | strbImm c im u rn rd imm12 => exact effects_transfer .strb (.imm imm12) c im u rn rd s
  | strbReg c im u rn rd imm5 ty rm => exact effects_transfer .strb (.reg imm5 ty rm) c im u rn rd s
  | ldrtImm c u rn rd imm12 => exact effects_transfer .ldrt (.imm imm12) c .post u rn rd s
  | ldrtReg c u rn rd imm5 ty rm => exact effects_transfer .ldrt (.reg imm5 ty rm) c .post u rn rd s
  | ldrbtImm c u rn rd imm12 => exact effects_transfer .ldrbt (.imm imm12) c .post u rn rd s
  | ldrbtReg c u rn rd imm5 ty rm => exact effects_transfer .ldrbt (.reg imm5 ty rm) c .post u rn rd s
  | strtImm c u rn rd imm12 => exact effects_transfer .strt (.imm imm12) c .post u rn rd s
  | strtReg c u rn rd imm5 ty rm => exact effects_transfer .strt (.reg imm5 ty rm) c .post u rn rd s
  | strbtImm c u rn rd imm12 => exact effects_transfer .strbt (.imm imm12) c .post u rn rd s
  | strbtReg c u rn rd imm5 ty rm => exact effects_transfer .strbt (.reg imm5 ty rm) c .post u rn rd s
  | strhImm c im u rn rd imm8 =>
    rw [← setWidth_narrow imm8]
    exact effects_transfer .strh (.imm (imm8.setWidth 12)) c im u rn rd s
  | strhReg c im u rn rd rm => exact effects_transfer .strh (.reg 0 .lsl rm) c im u rn rd s
  | ldrhImm c im u rn rd imm8 =>
    rw [← setWidth_narrow imm8]
    exact effects_transfer .ldrh (.imm (imm8.setWidth 12)) c im u rn rd s
  | ldrhReg c im u rn rd rm => exact effects_transfer .ldrh (.reg 0 .lsl rm) c im u rn rd s
  | ldrsbImm c im u rn rd imm8 =>
    rw [← setWidth_narrow imm8]
    exact effects_transfer .ldrsb (.imm (imm8.setWidth 12)) c im u rn rd s
  | ldrsbReg c im u rn rd rm => exact effects_transfer .ldrsb (.reg 0 .lsl rm) c im u rn rd s
  | ldrshImm c im u rn rd imm8 =>
    rw [← setWidth_narrow imm8]
    exact effects_transfer .ldrsh (.imm (imm8.setWidth 12)) c im u rn rd s
  | ldrshReg c im u rn rd rm => exact effects_transfer .ldrsh (.reg 0 .lsl rm) c im u rn rd s
  | ldrdImm | ldrdReg =>
    exact Effects.whenCond (Effects.pairChecks (effects_loadPair (fun _ hr => mem_cells (List.mem_append_left _ hr))
      (base_mem_cells (rs := [_, _])))) _
  | strdImm | strdReg =>
    exact Effects.whenCond (Effects.pairChecks (effects_storePair (base_mem_cells (rs := [])) rfl)) _
  | ldrex c rn rd => exact effects_ldrex dest_mem (.inl ⟨_, _, _, rfl⟩)
  | strex c rn rd rm => exact effects_strex dest_mem (.inr ⟨_, _, _, _, rfl⟩) rfl
  | pldImm => exact Touched.advance (Touched.refl _ s)
  | pldReg => exact Effects.unlessPc (Touched.advance (Touched.refl _ s)) _
  | ldm1 c am w rn list =>
    exact Effects.blockChecks (effects_loadMultiple (fun _ hr => mem_cells (List.mem_append_left _ hr)) base_mem_cells
      fun h => ⟨writesPc_ldm1 h, if_pos h⟩)
  | ldm2 c am rn list => exact Effects.blockChecks (effects_loadUser fun _ => mem_cells)
  | ldm3 c am w rn list =>
    exact Effects.blockChecks (effects_loadReturn
      (fun _ hr h15 => mem_cells (List.mem_append_left _ (mem_regList_of_withPc hr h15)) h15) base_mem_cells writesPc_ldm3 rfl)
  | stm1 c am w rn list => exact Effects.blockChecks (effects_storeMultiple (base_mem_cells (rs := [])) rfl)
  | stm2 c am rn list => exact Effects.blockChecks (effects_storeUser rfl)
  | rfe am w rn => exact Effects.unlessPc (effects_rfe (base_mem_cells (rs := [])) writesPc_rfe rfl) _
  | srs am w mode => exact effects_srs (fun _ => srs_mem) fun m hm => congrArg (Option.map _) hm
  | swp | swpb => exact effects_swap dest_mem rfl
  | swi c | undef c => exact Effects.whenCond (effects_raise _) c
  | bkpt c imm16 => exact effects_bkpt (imm16 := imm16)
  | cdp c => exact Effects.whenCond (effects_cpDataOp rfl) c
  | cdp2 => exact effects_cpDataOp rfl
  | mcr c => exact Effects.whenCond (effects_cpSend rfl) c
  | mcr2 => exact effects_cpSend rfl
  | mcrr c => exact Effects.whenCond (effects_cpSend2 rfl) c
  | mcrr2 => exact effects_cpSend2 rfl
  | mrc c => exact Effects.whenCond (effects_cpReceive rfl dest_mem fun h => if_pos h) c
  | mrc2 => exact effects_cpReceive rfl dest_mem fun h => if_pos h
  | mrrc c => exact Effects.whenCond (effects_cpReceive2 rfl first_mem second_mem) c
  | mrrc2 => exact effects_cpReceive2 rfl first_mem second_mem
  | ldc c => exact Effects.whenCond (effects_cpLoad rfl (base_mem_cells (rs := []))) c
  | ldc2 => exact effects_cpLoad rfl (base_mem_cells (rs := []))
  | stc c => exact Effects.whenCond (effects_cpStore rfl (base_mem_cells (rs := [])) fun r hr => congrArg (Option.map _) hr) c
  | stc2 => exact effects_cpStore rfl (base_mem_cells (rs := [])) fun r hr => congrArg (Option.map _) hr

end Sys2Proof.Proofs

/-! The frames of the instructions and the invariant of a step, read off the effect of each instruction. -/
namespace Sys2Proof.Proofs
open Sys2Proof Sys2Proof.Machine Sys2Proof.Laws

variable {p : Scope} {i : Instr} {s t : State}

/-! ### What an effect says -/

/-- An effect is a change within the scope, or the exception entry after one that leaves the status registers. -/
theorem Effect.framed_or_entry (h : Effect p s t) : Framed p s t ∨
    ∃ k u, Touched p s u ∧ u.cpsr = s.cpsr ∧ u.spsr = s.spsr ∧ t = takeException k u := by
  cases h with
  | next touched _ => exact Or.inl { touched.framed with }
  | branch _ framed _ => exact Or.inl framed
  | exception k touched hcpsr hspsr => exact Or.inr ⟨k, _, touched, hcpsr, hspsr, rfl⟩

/-- An instruction keeps the invariant. -/
theorem Effect.inv (h : Effect p s t) (hs : s.Inv) : t.Inv := by
  cases h with
  | next touched _ =>
    rw [← touched.pc]
    exact inv_advance (touched.inv hs)
  | branch _ _ inv => exact inv hs
  | exception k touched _ _ => exact inv_takeException (touched.inv hs) k

/-- An exception entry after such a change is one the statements speak of. -/
theorem raised_of_touched {u : State} {k : ExceptionKind} (h : Touched p s u) (hcpsr : u.cpsr = s.cpsr) (hspsr : u.spsr = s.spsr) :
    Raised s (takeException k u) :=
  ⟨k, u, hcpsr, h.pc, hspsr, h.framed.platform, rfl⟩

/-- The effect of an instruction that answers with a state. -/
theorem effect_of_exec (h : exec i s = .next t) : Effect (scopeOf i s) s t := exec_effects i s t h

/-! ### The frames -/

/-- Two status registers agree outside a mask where they agree bit by bit. -/
theorem and_not_congr {a c m : Word} (h : ∀ k < 32, m.getLsbD k = false → c.getLsbD k = a.getLsbD k) : c &&& ~~~m = a &&& ~~~m := by
  apply BitVec.eq_of_getLsbD_eq
  intro k hk
  rw [BitVec.getLsbD_and, BitVec.getLsbD_and, BitVec.getLsbD_not]
  cases hm : m.getLsbD k
  · rw [h k hk hm]
  · rw [Bool.not_true, Bool.and_false, Bool.and_false, Bool.and_false]

/-- Settles O13: in User mode the scope has neither the mode nor the masks. -/
theorem userModeIsLeftByExceptionsOnly : Obligations.UserModeIsLeftByExceptionsOnly := by
  unfold Obligations.UserModeIsLeftByExceptionsOnly
  intro i s t huser hexec
  obtain framed | ⟨k, u, touched, hcpsr, hspsr, rfl⟩ := (effect_of_exec hexec).framed_or_entry
  · refine Or.inl (and_not_congr (m := ~~~0x1DF) fun k hk hm => framed.psr.user huser k hk ?_)
    rwa [BitVec.getLsbD_not, decide_eq_true hk, Bool.true_and, Bool.not_eq_false'] at hm
  · exact Or.inr (raised_of_touched touched hcpsr hspsr)

/-- Settles O14: no scope that the statement admits clears Q, and exception entry keeps it. -/
theorem qIsSticky : Obligations.QIsSticky := by
  unfold Obligations.QIsSticky
  intro i s t hexec hq hbits
  obtain framed | ⟨k, u, -, hcpsr, -, rfl⟩ := (effect_of_exec hexec).framed_or_entry
  · exact framed.psr.q.resolve_left (not_not_intro hbits) hq
  · refine (getLsbD_entryPsr k u.platform.ee u.cpsr 27 (by decide) (by decide)).trans ?_
    rw [hcpsr]
    exact hq

/-- Settles O15: the status register changes within the bits of the scope. -/
theorem statusRegisterFrame : Obligations.StatusRegisterFrame := by
  unfold Obligations.StatusRegisterFrame
  intro i s t hexec
  obtain framed | ⟨k, u, touched, hcpsr, hspsr, rfl⟩ := (effect_of_exec hexec).framed_or_entry
  · exact Or.inl (and_not_congr framed.psr.bits)
  · exact Or.inr (raised_of_touched touched hcpsr hspsr)

/-- Settles O16: the registers change within the cells of the scope, but for R14 of an exception's mode. -/
theorem registerFrame : Obligations.RegisterFrame := by
  unfold Obligations.RegisterFrame
  intro i s t k hexec hk
  obtain framed | ⟨e, u, touched, -, -, rfl⟩ := (effect_of_exec hexec).framed_or_entry
  · exact Or.inl (framed.gpr k hk)
  · by_cases h14 : k = cell e.mode 14
    · exact Or.inr ⟨e, u, rfl, h14⟩
    · refine Or.inl (Eq.trans ?_ (touched.framed.gpr k hk))
      rw [takeException_gpr, get_set_other _ _ _ _ h14]

/-- Settles O17: memory changes within the span of the scope; exception entry leaves it. -/
theorem memoryFrame : Obligations.MemoryFrame := by
  unfold Obligations.MemoryFrame
  intro i s t hexec
  obtain ⟨u, framed, hmem, hwritten⟩ : ∃ u, Framed (scopeOf i s) s u ∧ t.mem = u.mem ∧ t.written = u.written := by
    obtain framed | ⟨e, u, touched, -, -, rfl⟩ := (effect_of_exec hexec).framed_or_entry
    · exact ⟨t, framed, rfl, rfl⟩
    · exact ⟨u, touched.framed, rfl, rfl⟩
  rw [hmem, hwritten]
  refine ⟨fun hnone => ?_, framed.mem⟩
  obtain ⟨hquiet, hkept⟩ := framed.quiet hnone
  exact ⟨fun a => by rw [hquiet], hkept⟩

/-- The PC goes to the next word but for branches and exceptions. -/
theorem Effect.pc (h : Effect p s t) : p.pc ∨ Raised s t ∨ s.pc.toNat + 4 < 2 ^ 32 ∧ t.pc = s.pc + 4 := by
  cases h with
  | next _ hpc => exact Or.inr (Or.inr ⟨hpc, rfl⟩)
  | branch hp _ _ => exact Or.inl hp
  | exception k touched hcpsr hspsr => exact Or.inr (Or.inl (raised_of_touched touched hcpsr hspsr))

/-- Settles O18: the rest of the state changes within the scope; exception entry changes an SPSR and the PC of it. -/
theorem specialStateFrame : Obligations.SpecialStateFrame := by
  unfold Obligations.SpecialStateFrame
  intro i s t hexec
  have heffect := effect_of_exec hexec
  refine ⟨?_, ?_⟩
  · obtain framed | ⟨k, u, -, -, -, rfl⟩ := heffect.framed_or_entry
    · exact framed.spsr.symm.imp_right fun h => h.imp_right Or.inl
    · exact Or.inr (Or.inr (Or.inr ⟨k, u, rfl⟩))
  · obtain ⟨u, framed, hmonitor, hcoprocs, hplatform, hlines⟩ : ∃ u, Framed (scopeOf i s) s u ∧ t.monitor = u.monitor ∧
        t.coprocs = u.coprocs ∧ t.platform = u.platform ∧ t.lines = u.lines := by
      obtain framed | ⟨e, u, touched, -, -, rfl⟩ := heffect.framed_or_entry
      · exact ⟨t, framed, rfl, rfl, rfl, rfl⟩
      · exact ⟨u, touched.framed, rfl, rfl, rfl, rfl⟩
    rw [hmonitor, hcoprocs, hplatform, hlines]
    exact ⟨framed.monitor.symm, framed.coprocs, framed.platform, framed.lines, heffect.pc⟩

/-! ### The invariant -/

/-- Settles O10: a step is an exception entry, an instruction, or the advance past one whose condition fails. -/
theorem stepKeepsLegalState : Obligations.StepKeepsLegalState := by
  unfold Obligations.StepKeepsLegalState
  intro s t hs hstep
  have htick : s.tick.Inv := inv_congr hs rfl rfl rfl rfl rfl
  obtain ⟨k, -, rfl⟩ | ⟨-, -, -, ⟨-, rfl⟩ | ⟨w, -, ⟨i, -, hexec⟩ | ⟨-, rfl⟩ | hadvance⟩⟩ := step_next hstep
  · exact inv_takeException htick k
  · exact inv_takeException htick _
  · exact (effect_of_exec hexec).inv htick
  · exact inv_takeException htick _
  · obtain ⟨-, rfl⟩ := advance_next.1 hadvance
    exact inv_advance htick

end Sys2Proof.Proofs
